-- ==== Sys2Proof/Word.lean ====
section
/-! DEFINITION. The machine's word: every register, every memory cell and both bus data lines are 32-bit vectors
(spec rules R9 and R60). -/

namespace Sys2Proof

/-- A 32-bit vector: a register, the content of one memory cell, or a cell address (R9, R60). `BitVec.toNat` is the
spec's unsigned reading `u(v)`, `BitVec.toInt` its signed reading `s(v)`; `+` and `-` are modulo 2^32. -/
abbrev Word := BitVec 32

/-- One byte, the unit in which the memory list is held (assumption log entry 2). No instruction sees a byte. -/
abbrev Byte := BitVec 8

end Sys2Proof
end

