-- ==== Sys2Proof/Config.lean ====
section
/-! DEFINITION. What an instantiation of the core fixes: the parameters of spec rule R7, the register-id sentinels of
`MOVE`, and the one value the spec leaves unspecified at the bus port (U11). -/

namespace Sys2Proof

/-- A run of cells the host maps: the addresses `base`, …, `base + size - 1` (R64: "which addresses the host maps"). -/
structure Region where
  base : Nat
  size : Nat
deriving DecidableEq, Repr

/-- The parameters of R7 that the spec leaves OPEN, as plain data. `State` carries one of these, which no step ever
changes, so a statement about every state is a statement about every choice of the parameters. -/
structure Params where
  /-- `VECTORED`: is the start address read from the cell at `bootAddr` (R6)? -/
  vectored : Bool
  /-- `BOOT_ADDR`: the start address, or in vectored mode the vector location (R6). -/
  bootAddr : Word
  /-- `SP_INIT`: the value of `SP` after reset, "the top of addressable memory" (R27). -/
  spInit : Word
  /-- `mapped`: the cells the host maps, as a list of regions (R64). -/
  regions : List Region
deriving DecidableEq, Repr

/-- The parameters that `State.reset` takes. DESIGN CHOICE (log entry 1): the spec leaves all four open. The host maps the
whole address space of 2^32 cells (R60), so `SP_INIT` is the highest address of it (R27); the boot is direct, at 0. -/
def Config.params : Params :=
  { vectored := false, bootAddr := 0, spInit := 0xFFFFFFFF, regions := [{ base := 0, size := 4294967296 }] }

/-- `REGID_A`: the word that names `RA` in an operand word of `MOVE` (R105, R280). -/
def Config.regIdA : Word := 0xFFFFFFF0
/-- `REGID_B`: the word that names `RB` in an operand word of `MOVE` (R105, R280). -/
def Config.regIdB : Word := 0xFFFFFFF1
/-- `REGID_X`: the word that names `RX` in an operand word of `MOVE` (R105, R280). -/
def Config.regIdX : Word := 0xFFFFFFF2

/-- What `data_in` carries at a tick whose presented transaction is a write of the second argument to the first. The spec
calls it "unspecified and unused" (93, U11): a FREE VALUE, with no body, so nothing can be proved of it (log entry 5). -/
opaque Config.dataInDuringWrite : Word → Word → Word

end Sys2Proof
end

