-- ==== Sys2Proof/Syntax.lean ====
section
/-! DEFINITION. The syntax of the instruction set: one constructor per row of the opcode map (spec rule R110), with the
operand words of its format (R101) as arguments. -/

namespace Sys2Proof

/-- The three general registers `RA`, `RB`, `RX` (R21). -/
inductive Reg where
  | a | b | x
deriving DecidableEq, Repr

/-- An operand of `MOVE`: a general register named by its register id, or a memory cell named by its address (R105). -/
inductive MoveOperand where
  | reg (r : Reg)
  | cell (addr : Word)
deriving DecidableEq, Repr

/-- The 55 instructions of R110, in the order of the table. The docstring of each gives its mnemonic and its rule. -/
inductive Instr where
  /-- `NOP`, format Z, R171. -/
  | nop
  /-- `SET_ZERO`, format Z, R172. -/
  | setZero
  /-- `CLEAR_ZERO`, format Z, R173. -/
  | clearZero
  /-- `SET_CARRY`, format Z, R174. -/
  | setCarry
  /-- `CLEAR_CARRY`, format Z, R175. -/
  | clearCarry
  /-- `SET_NEGATIVE`, format Z, R176. -/
  | setNegative
  /-- `CLEAR_NEGATIVE`, format Z, R177. -/
  | clearNegative
  /-- `SET_ERROR`, format Z, R178. -/
  | setError
  /-- `CLEAR_ERROR`, format Z, R179. -/
  | clearError
  /-- `SET_OVERFLOW`, format Z, R180. -/
  | setOverflow
  /-- `CLEAR_OVERFLOW`, format Z, R181. -/
  | clearOverflow
  /-- `INC_A`, format Z, R182. -/
  | incA
  /-- `INC_B`, format Z, R183. -/
  | incB
  /-- `INC_X`, format Z, R184. -/
  | incX
  /-- `DEC_A`, format Z, R185. -/
  | decA
  /-- `DEC_B`, format Z, R186. -/
  | decB
  /-- `DEC_X`, format Z, R187. -/
  | decX
  /-- `LOAD_IMM_A`, format I, R201. -/
  | loadImmA (imm : Word)
  /-- `LOAD_IMM_B`, format I, R202. -/
  | loadImmB (imm : Word)
  /-- `LOAD_IMM_X`, format I, R203. -/
  | loadImmX (imm : Word)
  /-- `ADD_A_IMMEDIATE`, format I, R204. -/
  | addAImmediate (imm : Word)
  /-- `ADD_B_IMMEDIATE`, format I, R205. -/
  | addBImmediate (imm : Word)
  /-- `ADD_X_IMMEDIATE`, format I, R206. -/
  | addXImmediate (imm : Word)
  /-- `SUB_A_IMMEDIATE`, format I, R207. -/
  | subAImmediate (imm : Word)
  /-- `SUB_B_IMMEDIATE`, format I, R208. -/
  | subBImmediate (imm : Word)
  /-- `SUB_X_IMMEDIATE`, format I, R209. -/
  | subXImmediate (imm : Word)
  /-- `LOAD_ABS_A`, format A, R221. -/
  | loadAbsA (addr : Word)
  /-- `LOAD_ABS_B`, format A, R222. -/
  | loadAbsB (addr : Word)
  /-- `LOAD_ABS_X`, format A, R223. -/
  | loadAbsX (addr : Word)
  /-- `ADD_A_ABSOLUTE`, format A, R224. -/
  | addAAbsolute (addr : Word)
  /-- `ADD_B_ABSOLUTE`, format A, R225. -/
  | addBAbsolute (addr : Word)
  /-- `ADD_X_ABSOLUTE`, format A, R226. -/
  | addXAbsolute (addr : Word)
  /-- `SUB_A_ABSOLUTE`, format A, R227. -/
  | subAAbsolute (addr : Word)
  /-- `SUB_B_ABSOLUTE`, format A, R228. -/
  | subBAbsolute (addr : Word)
  /-- `SUB_X_ABSOLUTE`, format A, R229. -/
  | subXAbsolute (addr : Word)
  /-- `PUSH_A`, format Z, R241. -/
  | pushA
  /-- `PUSH_B`, format Z, R242. -/
  | pushB
  /-- `PUSH_X`, format Z, R243. -/
  | pushX
  /-- `POP_A`, format Z, R244. -/
  | popA
  /-- `POP_B`, format Z, R245. -/
  | popB
  /-- `POP_X`, format Z, R246. -/
  | popX
  /-- `CALL`, format J, R247. -/
  | call (target : Word)
  /-- `RETURN`, format Z, R248. -/
  | ret
  /-- `JUMP`, format J, R261. -/
  | jump (target : Word)
  /-- `JUMP_IF_ZERO`, format J, R262. -/
  | jumpIfZero (target : Word)
  /-- `JUMP_IF_NOT_ZERO`, format J, R263. -/
  | jumpIfNotZero (target : Word)
  /-- `JUMP_IF_CARRY`, format J, R264. -/
  | jumpIfCarry (target : Word)
  /-- `JUMP_IF_NOT_CARRY`, format J, R265. -/
  | jumpIfNotCarry (target : Word)
  /-- `JUMP_IF_NEGATIVE`, format J, R266. -/
  | jumpIfNegative (target : Word)
  /-- `JUMP_IF_NOT_NEGATIVE`, format J, R267. -/
  | jumpIfNotNegative (target : Word)
  /-- `JUMP_IF_ERROR`, format J, R268. -/
  | jumpIfError (target : Word)
  /-- `JUMP_IF_NOT_ERROR`, format J, R269. -/
  | jumpIfNotError (target : Word)
  /-- `JUMP_IF_OVERFLOW`, format J, R270. -/
  | jumpIfOverflow (target : Word)
  /-- `JUMP_IF_NOT_OVERFLOW`, format J, R271. -/
  | jumpIfNotOverflow (target : Word)
  /-- `MOVE`, format M, R281. -/
  | move (src dst : MoveOperand)
deriving DecidableEq, Repr

end Sys2Proof
end

