-- ==== Sys2Proof/WellFormed.lean ====
section
/-! DEFINITION. Which terms of the syntax stand for words the hardware has. Every operand word is used whole (spec rules
R103, R104), so the one check is that a `MOVE` operand written as a cell is not one of the three register ids (R280). -/

namespace Sys2Proof

/-- `isreg(w)` of R280: is the word one of the three register ids? -/
def isRegId (w : Word) : Bool :=
  w == Config.regIdA || w == Config.regIdB || w == Config.regIdX

/-- A cell operand of `MOVE` cannot have a register id as its address: "`MOVE` cannot reach the cells at these addresses"
(R74, R280). -/
def MoveOperand.wellFormed : MoveOperand → Bool
  | .reg _ => true
  | .cell addr => !isRegId addr

/-- An instruction that some words of memory encode. -/
def Instr.wellFormed : Instr → Bool
  | .move src dst => src.wellFormed && dst.wellFormed
  | .nop | .setZero | .clearZero | .setCarry | .clearCarry | .setNegative | .clearNegative | .setError
  | .clearError | .setOverflow | .clearOverflow | .incA | .incB | .incX | .decA | .decB | .decX
  | .loadImmA _ | .loadImmB _ | .loadImmX _ | .addAImmediate _ | .addBImmediate _ | .addXImmediate _
  | .subAImmediate _ | .subBImmediate _ | .subXImmediate _ | .loadAbsA _ | .loadAbsB _ | .loadAbsX _
  | .addAAbsolute _ | .addBAbsolute _ | .addXAbsolute _ | .subAAbsolute _ | .subBAbsolute _
  | .subXAbsolute _ | .pushA | .pushB | .pushX | .popA | .popB | .popX | .call _ | .ret | .jump _
  | .jumpIfZero _ | .jumpIfNotZero _ | .jumpIfCarry _ | .jumpIfNotCarry _ | .jumpIfNegative _
  | .jumpIfNotNegative _ | .jumpIfError _ | .jumpIfNotError _ | .jumpIfOverflow _ | .jumpIfNotOverflow _ => true

end Sys2Proof
end

