-- ==== Sys2Proof/Decode.lean ====
section
/-! DEFINITION. The Instruction Registry (spec rules R107 to R110), the decoder over it, which is total because an
unregistered opcode dispatches to the no-operation (R112, R134), and the encoder. -/

namespace Sys2Proof

/-! ## The registry -/

/-- An Instruction Descriptor (R107): opcode, name, declared length in words, and the instruction that the operand words
make. Its `step` is the cycle table `cycleTable` of the built instruction, in Machine/Protocol.lean. -/
structure Descriptor where
  opcode : Word
  name : String
  length : Nat
  build : Word → Word → Instr

/-- The register a register id names, `regof` of R280, where the word is one. -/
def regOfId? (w : Word) : Option Reg :=
  if w = Config.regIdA then some .a
  else if w = Config.regIdB then some .b
  else if w = Config.regIdX then some .x
  else none

/-- The operand an operand word of `MOVE` stands for (R105): a register id names a register, any other value a cell. -/
def MoveOperand.ofWord (w : Word) : MoveOperand :=
  match regOfId? w with
  | some r => .reg r
  | none => .cell w

/-- Rows of R110: the no-operation and the ten flag instructions. -/
def flagRows : List Descriptor := [
  ⟨0x00, "NOP", 1, fun _ _ => .nop⟩,
  ⟨0x01, "SET_ZERO", 1, fun _ _ => .setZero⟩,
  ⟨0x02, "CLEAR_ZERO", 1, fun _ _ => .clearZero⟩,
  ⟨0x03, "SET_CARRY", 1, fun _ _ => .setCarry⟩,
  ⟨0x04, "CLEAR_CARRY", 1, fun _ _ => .clearCarry⟩,
  ⟨0x05, "SET_NEGATIVE", 1, fun _ _ => .setNegative⟩,
  ⟨0x06, "CLEAR_NEGATIVE", 1, fun _ _ => .clearNegative⟩,
  ⟨0x07, "SET_ERROR", 1, fun _ _ => .setError⟩,
  ⟨0x08, "CLEAR_ERROR", 1, fun _ _ => .clearError⟩,
  ⟨0x09, "SET_OVERFLOW", 1, fun _ _ => .setOverflow⟩,
  ⟨0x0A, "CLEAR_OVERFLOW", 1, fun _ _ => .clearOverflow⟩]

/-- Rows of R110: increment and decrement. -/
def countRows : List Descriptor := [
  ⟨0x10, "INC_A", 1, fun _ _ => .incA⟩,
  ⟨0x11, "INC_B", 1, fun _ _ => .incB⟩,
  ⟨0x12, "INC_X", 1, fun _ _ => .incX⟩,
  ⟨0x14, "DEC_A", 1, fun _ _ => .decA⟩,
  ⟨0x15, "DEC_B", 1, fun _ _ => .decB⟩,
  ⟨0x16, "DEC_X", 1, fun _ _ => .decX⟩]

/-- Rows of R110: the immediate family. -/
def immediateRows : List Descriptor := [
  ⟨0x20, "LOAD_IMM_A", 2, fun imm _ => .loadImmA imm⟩,
  ⟨0x21, "LOAD_IMM_B", 2, fun imm _ => .loadImmB imm⟩,
  ⟨0x22, "LOAD_IMM_X", 2, fun imm _ => .loadImmX imm⟩,
  ⟨0x24, "ADD_A_IMMEDIATE", 2, fun imm _ => .addAImmediate imm⟩,
  ⟨0x25, "ADD_B_IMMEDIATE", 2, fun imm _ => .addBImmediate imm⟩,
  ⟨0x26, "ADD_X_IMMEDIATE", 2, fun imm _ => .addXImmediate imm⟩,
  ⟨0x28, "SUB_A_IMMEDIATE", 2, fun imm _ => .subAImmediate imm⟩,
  ⟨0x29, "SUB_B_IMMEDIATE", 2, fun imm _ => .subBImmediate imm⟩,
  ⟨0x2A, "SUB_X_IMMEDIATE", 2, fun imm _ => .subXImmediate imm⟩]

/-- Rows of R110: the absolute family. -/
def absoluteRows : List Descriptor := [
  ⟨0x30, "LOAD_ABS_A", 2, fun addr _ => .loadAbsA addr⟩,
  ⟨0x31, "LOAD_ABS_B", 2, fun addr _ => .loadAbsB addr⟩,
  ⟨0x32, "LOAD_ABS_X", 2, fun addr _ => .loadAbsX addr⟩,
  ⟨0x34, "ADD_A_ABSOLUTE", 2, fun addr _ => .addAAbsolute addr⟩,
  ⟨0x35, "ADD_B_ABSOLUTE", 2, fun addr _ => .addBAbsolute addr⟩,
  ⟨0x36, "ADD_X_ABSOLUTE", 2, fun addr _ => .addXAbsolute addr⟩,
  ⟨0x38, "SUB_A_ABSOLUTE", 2, fun addr _ => .subAAbsolute addr⟩,
  ⟨0x39, "SUB_B_ABSOLUTE", 2, fun addr _ => .subBAbsolute addr⟩,
  ⟨0x3A, "SUB_X_ABSOLUTE", 2, fun addr _ => .subXAbsolute addr⟩]

/-- Rows of R110: the stack family. -/
def stackRows : List Descriptor := [
  ⟨0x40, "PUSH_A", 1, fun _ _ => .pushA⟩,
  ⟨0x41, "PUSH_B", 1, fun _ _ => .pushB⟩,
  ⟨0x42, "PUSH_X", 1, fun _ _ => .pushX⟩,
  ⟨0x44, "POP_A", 1, fun _ _ => .popA⟩,
  ⟨0x45, "POP_B", 1, fun _ _ => .popB⟩,
  ⟨0x46, "POP_X", 1, fun _ _ => .popX⟩,
  ⟨0x48, "CALL", 2, fun target _ => .call target⟩,
  ⟨0x49, "RETURN", 1, fun _ _ => .ret⟩]

/-- Rows of R110: the branch family. -/
def branchRows : List Descriptor := [
  ⟨0x50, "JUMP", 2, fun target _ => .jump target⟩,
  ⟨0x51, "JUMP_IF_ZERO", 2, fun target _ => .jumpIfZero target⟩,
  ⟨0x52, "JUMP_IF_NOT_ZERO", 2, fun target _ => .jumpIfNotZero target⟩,
  ⟨0x53, "JUMP_IF_CARRY", 2, fun target _ => .jumpIfCarry target⟩,
  ⟨0x54, "JUMP_IF_NOT_CARRY", 2, fun target _ => .jumpIfNotCarry target⟩,
  ⟨0x55, "JUMP_IF_NEGATIVE", 2, fun target _ => .jumpIfNegative target⟩,
  ⟨0x56, "JUMP_IF_NOT_NEGATIVE", 2, fun target _ => .jumpIfNotNegative target⟩,
  ⟨0x57, "JUMP_IF_ERROR", 2, fun target _ => .jumpIfError target⟩,
  ⟨0x58, "JUMP_IF_NOT_ERROR", 2, fun target _ => .jumpIfNotError target⟩,
  ⟨0x59, "JUMP_IF_OVERFLOW", 2, fun target _ => .jumpIfOverflow target⟩,
  ⟨0x5A, "JUMP_IF_NOT_OVERFLOW", 2, fun target _ => .jumpIfNotOverflow target⟩]

/-- Rows of R110: the indirect move. -/
def moveRows : List Descriptor := [
  ⟨0x60, "MOVE", 3, fun src dst => .move (.ofWord src) (.ofWord dst)⟩]

/-- The 55 rows of R110 in the table's order, which is the registration order (R108). -/
def registryRows : List Descriptor :=
  flagRows ++ countRows ++ immediateRows ++ absoluteRows ++ stackRows ++ branchRows ++ moveRows

/-- Why a registry cannot be built (R108, R303): which registration attempt collided, and on which key. -/
inductive RegistryError where
  /-- The opcode of this descriptor is already bound. -/
  | duplicateOpcode (opcode : Word) (name : String)
  /-- The name of this descriptor is already bound. -/
  | duplicateName (opcode : Word) (name : String)
deriving DecidableEq, Repr

/-- Register one descriptor after the ones already there: "a collision on either key is a fatal configuration error" (R108).
R108 says which attempt is reported, the one that collides. It does not say which key an attempt that collides on both is
reported for: DESIGN CHOICE (log entry 19), the opcode. -/
def register (bound : List Descriptor) (d : Descriptor) : Except RegistryError (List Descriptor) :=
  if bound.any (fun e => e.opcode == d.opcode) then .error (.duplicateOpcode d.opcode d.name)
  else if bound.any (fun e => e.name == d.name) then .error (.duplicateName d.opcode d.name)
  else .ok (bound ++ [d])

/-- Register descriptors one by one after those already bound, stopping at the first collision. -/
def registerAll (bound : List Descriptor) : List Descriptor → Except RegistryError (List Descriptor)
  | [] => .ok bound
  | d :: rest =>
    match register bound d with
    | .ok bound' => registerAll bound' rest
    | .error e => .error e

/-- Build a registry from its rows, or refuse: with a collision "the machine does not exist, rather than existing and
faulting" (R108, R303). -/
def buildRegistry (rows : List Descriptor) : Except RegistryError (List Descriptor) := registerAll [] rows

/-- The descriptor registered for an opcode word; all 32 bits are compared (R102). `none`: the opcode is unassigned. -/
def lookup (w : Word) : Option Descriptor := registryRows.find? fun d => d.opcode == w

/-! ## The decoder -/

/-- The instruction the opcode word `w` and the two words after it stand for. An unassigned opcode word "executes exactly
as `NOP`" (R112), so decoding is total. -/
def decode (w operand1 operand2 : Word) : Instr :=
  match lookup w with
  | some d => d.build operand1 operand2
  | none => .nop

/-- The number of words the opcode word alone determines; "an unassigned opcode has length 1" (R106). -/
def decodeLength (w : Word) : Nat :=
  match lookup w with
  | some d => d.length
  | none => 1

/-- Why a finite list of words is not the start of an instruction. The hardware, which reads memory, never meets this. -/
inductive DecodeError where
  /-- There is no opcode word. -/
  | noOpcode
  /-- The opcode of this name needs more operand words than the list holds. -/
  | missingOperand (name : String)
deriving DecidableEq, Repr

/-- Decode the first instruction of a list of words and give the words after it (R100, R101). -/
def decodeList : List Word → Except DecodeError (Instr × List Word)
  | [] => .error .noOpcode
  | w :: rest =>
    match lookup w with
    | none => .ok (.nop, rest)
    | some d =>
      if rest.length + 1 < d.length then .error (.missingOperand d.name)
      else .ok (d.build (rest.getD 0 0) (rest.getD 1 0), rest.drop (d.length - 1))

/-! ## The encoder -/

/-- The register id of a register (R105). -/
def Reg.id : Reg → Word
  | .a => Config.regIdA
  | .b => Config.regIdB
  | .x => Config.regIdX

/-- The operand word of a `MOVE` operand (R105). -/
def MoveOperand.toWord : MoveOperand → Word
  | .reg r => r.id
  | .cell addr => addr

/-- The words of an instruction: the opcode word, then the operand words in the order of its format (R101, R110). -/
def encode : Instr → List Word
  | .nop => [0x00]
  | .setZero => [0x01]
  | .clearZero => [0x02]
  | .setCarry => [0x03]
  | .clearCarry => [0x04]
  | .setNegative => [0x05]
  | .clearNegative => [0x06]
  | .setError => [0x07]
  | .clearError => [0x08]
  | .setOverflow => [0x09]
  | .clearOverflow => [0x0A]
  | .incA => [0x10]
  | .incB => [0x11]
  | .incX => [0x12]
  | .decA => [0x14]
  | .decB => [0x15]
  | .decX => [0x16]
  | .loadImmA imm => [0x20, imm]
  | .loadImmB imm => [0x21, imm]
  | .loadImmX imm => [0x22, imm]
  | .addAImmediate imm => [0x24, imm]
  | .addBImmediate imm => [0x25, imm]
  | .addXImmediate imm => [0x26, imm]
  | .subAImmediate imm => [0x28, imm]
  | .subBImmediate imm => [0x29, imm]
  | .subXImmediate imm => [0x2A, imm]
  | .loadAbsA addr => [0x30, addr]
  | .loadAbsB addr => [0x31, addr]
  | .loadAbsX addr => [0x32, addr]
  | .addAAbsolute addr => [0x34, addr]
  | .addBAbsolute addr => [0x35, addr]
  | .addXAbsolute addr => [0x36, addr]
  | .subAAbsolute addr => [0x38, addr]
  | .subBAbsolute addr => [0x39, addr]
  | .subXAbsolute addr => [0x3A, addr]
  | .pushA => [0x40]
  | .pushB => [0x41]
  | .pushX => [0x42]
  | .popA => [0x44]
  | .popB => [0x45]
  | .popX => [0x46]
  | .call target => [0x48, target]
  | .ret => [0x49]
  | .jump target => [0x50, target]
  | .jumpIfZero target => [0x51, target]
  | .jumpIfNotZero target => [0x52, target]
  | .jumpIfCarry target => [0x53, target]
  | .jumpIfNotCarry target => [0x54, target]
  | .jumpIfNegative target => [0x55, target]
  | .jumpIfNotNegative target => [0x56, target]
  | .jumpIfError target => [0x57, target]
  | .jumpIfNotError target => [0x58, target]
  | .jumpIfOverflow target => [0x59, target]
  | .jumpIfNotOverflow target => [0x5A, target]
  | .move src dst => [0x60, src.toWord, dst.toWord]

/-! ## The opcode table's numbering -/

/-- Word number `k` of an instruction whose low `nbits` bits are those of `w` and whose other bits are 0: bit 0 of word 0
is bit 0 of `w`, and a later word's bits count on from it. -/
def tableWord (nbits w k : Nat) : Word := BitVec.ofNat 32 ((w % 2 ^ nbits) >>> (32 * k))

end Sys2Proof

/-- The instruction the decoder reads from an instruction whose bits are `w`, as spec/opcode_table.json numbers them. -/
def Sys2Proof.decodeTableWord (nbits w : Nat) : Option Sys2Proof.Instr :=
  match Sys2Proof.decodeList [Sys2Proof.tableWord nbits w 0, Sys2Proof.tableWord nbits w 1, Sys2Proof.tableWord nbits w 2] with
  | .ok (i, _) => some i
  | .error _ => none
end

