-- ==== Sys2Proof/Machine/State.lean ====
section
/-! DEFINITION. The state of the machine as plain data: every element of spec rule R20, the memory and the parameters of
the host (R64, R7), and the levels the host's `rst` and `stall` lines take in the coming ticks (R38). -/

namespace Sys2Proof.Machine

/-- The names of the five flags (R30). -/
inductive Flag where
  | zero | carry | negative | error | overflow
deriving DecidableEq, Repr

/-- `Flags`, "a fixed 5-bit set" of independent bits (R30). -/
structure Flags where
  zero : Bool
  carry : Bool
  negative : Bool
  error : Bool
  overflow : Bool
deriving DecidableEq, Repr

/-- All five flags 0. -/
def Flags.clear : Flags := ⟨false, false, false, false, false⟩

/-- `reset_state` (R34): sub-states 0 and 1 are the two active cycles of the reset sequence; `run` is sub-state 2, "the
sequence is complete and the fetch/execute machine runs". The value 3 of the two bits never occurs and is not here. -/
inductive ResetState where
  | rs0 | rs1 | run
deriving DecidableEq, Repr

/-- `bus_rw`, the direction line (R37): 0 is read, 1 is write. -/
inductive BusDir where
  | read | write
deriving DecidableEq, Repr

/-- The levels of the two control inputs at one tick (R38): the reset input and the wait-state line, each 1 when true. -/
structure Lines where
  rst : Bool
  stall : Bool
deriving DecidableEq, Repr

/-- Both control inputs inactive. -/
def Lines.quiet : Lines := ⟨false, false⟩

/-- The content of the host's cells: bytes by key, where byte `j` of the cell at address `a` has the key `4 * a + j`
(log entry 2); an unlisted byte reads as 0 (log entry 3). The canonical form is `Memory.wf` in Machine/Memory.lean. -/
abbrev Memory := List Host.Cell

/-- The state of the core and of the host's side of its ports. -/
structure State where
  /-- `RA` (R21). -/
  ra : Word
  /-- `RB` (R21). -/
  rb : Word
  /-- `RX` (R21). -/
  rx : Word
  /-- `IP`, the program counter, a cell address (R23). -/
  ip : Word
  /-- `SP`, the stack pointer, the address of the next free cell (R25, R26). -/
  sp : Word
  /-- `QP`, the auxiliary pointer, which no instruction reads or writes (R28). -/
  qp : Word
  /-- `IR`, the opcode word of the last fetch (R29). -/
  ir : Word
  /-- `Flags` (R30). -/
  flags : Flags
  /-- `tmp1`, scratch (R33). -/
  tmp1 : Word
  /-- `tmp2`, scratch (R33). -/
  tmp2 : Word
  /-- `tmp3`, scratch, never written after reset (R33). -/
  tmp3 : Word
  /-- `reset_state` (R34). -/
  resetState : ResetState
  /-- `instr_state`, the micro-step counter, 3 bits; 0 is the fetch cycle (R35). -/
  instrState : BitVec 3
  /-- `bus_addr`, the register that drives the address lines (R37). -/
  busAddr : Word
  /-- `bus_data_out`, the register that drives the data-out lines (R37). -/
  busDataOut : Word
  /-- `bus_rw`, the register that drives the direction line (R37). -/
  busRw : BusDir
  /-- The host's memory `M` (R64). -/
  mem : Memory
  /-- The parameters of the instantiation (R7); no step changes them. -/
  params : Params
  /-- The model's own field: the levels of `rst` and `stall` at the next ticks, the soonest first. When the list is empty
  both lines stay inactive (log entry 4). -/
  lines : List Lines
deriving DecidableEq, Repr

/-- Why the machine stops. The core itself "raises no synchronous exception" (R300), so there is one fault, and no state
that a run from reset reaches takes it. -/
inductive Fault where
  /-- Raised by a tick in EXECUTE(k) when the cycle table of the instruction in `IR` has no row for `instr_state = k`: the
  spec gives such a state no behaviour (R35, R137, U4: "a model should use `refuse`"). SAFE: the engine stops where the
  spec says nothing; the statement `EveryStepCompletesAndKeepsProtocol` says it is unreachable. -/
  | noCycleRow (ir : Word) (instrState : BitVec 3)
deriving DecidableEq, Repr

/-- Why the model has no meaning for what it met. -/
inductive Refusal where
  /-- Raised by an arm of `exec` whose instruction has no meaning yet. SAFE. No arm is such an arm: all 55 have one. -/
  | notModelled (mnemonic : String)
deriving DecidableEq, Repr

/-- The machine right after the reset input is released (R42, middle column; R331): every register 0, `SP` at `SP_INIT`,
the reset sequence about to begin. The parameters are those of `Config.params` (log entry 1); memory lists nothing. -/
def State.reset : State :=
  { ra := 0, rb := 0, rx := 0, ip := 0, sp := Config.params.spInit, qp := 0, ir := 0, flags := Flags.clear
    tmp1 := 0, tmp2 := 0, tmp3 := 0, resetState := .rs0, instrState := 0
    busAddr := 0, busDataOut := 0, busRw := .read, mem := [], params := Config.params, lines := [] }

end Sys2Proof.Machine
end

