-- ==== Sys2Proof/Machine/Flags.lean ====
section
/-! DEFINITION. The flags: reading and writing one of them, the word the diagnostic port shows, and every flag update an
instruction or the ALU makes (spec rules R30, R31, R140, R142). -/

namespace Sys2Proof.Machine

/-- The value of one flag. -/
def Flags.get (f : Flags) : Flag → Bool
  | .zero => f.zero
  | .carry => f.carry
  | .negative => f.negative
  | .error => f.error
  | .overflow => f.overflow

/-- `flag.F <- b`: one flag is written, the other four keep their values (R30). -/
def Flags.put (f : Flags) (name : Flag) (b : Bool) : Flags :=
  match name with
  | .zero => { f with zero := b }
  | .carry => { f with carry := b }
  | .negative => { f with negative := b }
  | .error => { f with error := b }
  | .overflow => { f with overflow := b }

/-- The flags as five bits: bit 0 ZERO, 1 CARRY, 2 NEGATIVE, 3 ERROR, 4 OVERFLOW (R30, D5). -/
def Flags.toBits (f : Flags) : BitVec 5 :=
  BitVec.ofBool f.overflow ++ BitVec.ofBool f.error ++ BitVec.ofBool f.negative ++ BitVec.ofBool f.carry ++
    BitVec.ofBool f.zero

/-- The flag update of a load: ZERO says whether the loaded value is 0, nothing else is written (R31, D9). -/
def Flags.afterLoad (f : Flags) (v : Word) : Flags := f.put .zero (v == 0)

/-- The flag updates the ALU answers with (R140): ZERO and NEGATIVE, or for an undefined operation all flags cleared and
ERROR set. -/
inductive FlagUpdate where
  | zeroNegative (zero negative : Bool)
  | undefinedOp
deriving DecidableEq, Repr

/-- Apply the ALU's flag updates: CARRY, ERROR and OVERFLOW keep their values (R141, D7) unless the operation was
undefined, which leaves ERROR alone set (R142). -/
def Flags.apply (f : Flags) : FlagUpdate → Flags
  | .zeroNegative z n => (f.put .zero z).put .negative n
  | .undefinedOp => Flags.clear.put .error true

end Sys2Proof.Machine
end

