-- ==== Sys2Proof/Machine/Alu.lean ====
section
/-! DEFINITION. The Arithmetic Unit (spec rules R140 to R144): stateless combinational computation. -/

namespace Sys2Proof.Machine

/-- The operation requested of the ALU (R143). `other` stands for every code but the four. -/
inductive AluOp where
  | add | sub | inc | dec | other
deriving DecidableEq, Repr

/-- The 3-bit selector of R143: `ADD = 0`, `SUB = 1`, `INC = 2`, `DEC = 3`, 4 to 7 undefined. -/
def AluOp.ofSelector (code : BitVec 3) : AluOp :=
  if code = 0 then .add else if code = 1 then .sub else if code = 2 then .inc else if code = 3 then .dec else .other

/-- What the ALU answers: the result and the flag updates (R140). -/
structure AluAnswer where
  result : Word
  update : FlagUpdate
deriving DecidableEq, Repr

/-- The answer of a defined operation: ZERO is `result == 0`, NEGATIVE is bit 31 of the result (R140, D6, D8). -/
def aluAnswer (r : Word) : AluAnswer := ⟨r, .zeroNegative (r == 0) r.msb⟩

/-- `ALU(op, a, b)` of R140, all arithmetic modulo 2^32; `INC` and `DEC` ignore the second operand, an undefined operation
has the result 0. -/
def alu (op : AluOp) (a b : Word) : AluAnswer :=
  match op with
  | .add => aluAnswer (a + b)
  | .sub => aluAnswer (a - b)
  | .inc => aluAnswer (a + 1)
  | .dec => aluAnswer (a - 1)
  | .other => ⟨0, .undefinedOp⟩

/-- Does the engine write the answer's result to the destination register? Not after an undefined operation, which
"leaves the destination register unmodified" (R142). -/
def AluAnswer.commits (ans : AluAnswer) : Bool :=
  match ans.update with
  | .zeroNegative _ _ => true
  | .undefinedOp => false

end Sys2Proof.Machine
end

