-- ==== Sys2Proof/Machine/Memory.lean ====
section
/-! DEFINITION. The host's memory behind the port (spec rules R60, R64 to R67): the byte list in its canonical form, one
32-bit cell built from four bytes in one place, and the two transactions `MemRead` and `MemWrite`. -/

namespace Sys2Proof.Machine

/-! ## Bytes -/

/-- The byte at a key; an unlisted byte reads as 0 (log entry 3). -/
def Memory.readByte : Memory → Nat → Byte
  | [], _ => 0
  | (k, b) :: rest, key => if k = key then b else Memory.readByte rest key

/-- Put an entry in front; a 0 is what an unlisted byte reads as, so it gets no entry. -/
def Memory.entry (key : Nat) (v : Byte) (rest : Memory) : Memory := if v = 0 then rest else (key, v) :: rest

/-- Put a byte at a key, keeping the list sorted and without an entry for a 0. -/
def Memory.writeByte : Memory → Nat → Byte → Memory
  | [], key, v => Memory.entry key v []
  | (k, b) :: rest, key, v =>
    if key < k then Memory.entry key v ((k, b) :: rest)
    else if key = k then Memory.entry key v rest
    else (k, b) :: Memory.writeByte rest key v

/-- The canonical form of the entries from key `low` on: keys strictly rising, each that of a byte of one of the 2^32
cells, and no entry equal to what an unlisted byte reads as. -/
def Memory.wfFrom : Nat → Memory → Bool
  | _, [] => true
  | low, (k, b) :: rest => decide (low ≤ k) && decide (k < 4 * 2 ^ 32) && decide (b ≠ 0) && Memory.wfFrom (k + 1) rest

/-- The canonical form of the memory, so that equal memories are equal lists. -/
def Memory.wf (m : Memory) : Bool := Memory.wfFrom 0 m

/-! ## Cells -/

/-- The key of byte `j` of the cell at an address (log entry 2). -/
def byteKey (a : Word) (j : Nat) : Nat := 4 * a.toNat + j

/-- The content `M[a]` of the cell at an address: all 32 bits at once (R67), byte 0 the least significant. -/
def Memory.readCell (m : Memory) (a : Word) : Word :=
  m.readByte (byteKey a 3) ++ m.readByte (byteKey a 2) ++ m.readByte (byteKey a 1) ++ m.readByte (byteKey a 0)

/-- `M[a] <- v`: a write replaces all 32 bits of one cell (R67). -/
def Memory.writeCell (m : Memory) (a v : Word) : Memory :=
  (((m.writeByte (byteKey a 0) (v.extractLsb' 0 8)).writeByte (byteKey a 1) (v.extractLsb' 8 8)).writeByte
    (byteKey a 2) (v.extractLsb' 16 8)).writeByte (byteKey a 3) (v.extractLsb' 24 8)

/-! ## The two transactions -/

/-- `mapped(a)` of R64: does the host map the address? -/
def Params.maps (p : Params) (a : Word) : Bool :=
  p.regions.any fun r => decide (r.base ≤ a.toNat) && decide (a.toNat < r.base + r.size)

/-- What a read of an unmapped address returns: "an all-ones sentinel value" (R65). -/
def unmappedRead : Word := 0xFFFFFFFF

/-- `MemRead(a, 1)`: the value of a retired read at an address (R65). -/
def State.memRead (s : State) (a : Word) : Word :=
  if Params.maps s.params a then s.mem.readCell a else unmappedRead

/-- `MemWrite(a, 1, v)`: the effect of a retired write; at an unmapped address it "is discarded silently" (R66). -/
def State.memWrite (s : State) (a v : Word) : State :=
  if Params.maps s.params a then { s with mem := s.mem.writeCell a v } else s

end Sys2Proof.Machine
end

