-- ==== Sys2Proof/Machine/Ops.lean ====
section
/-! DEFINITION. The named operations over the state that every meaning is written with: register access, the commit, the
Stack Unit, the ALU with its destination, and the reset. The machine has no exception to take and none to return from
(spec rules R300, R308, R309), so there is no operation for either: `RETURN` is a subroutine return. -/

namespace Sys2Proof.Machine

/-! ## Registers -/

/-- `x[r]`: the value of a general register (R10, R21). -/
def State.getReg (s : State) : Reg → Word
  | .a => s.ra
  | .b => s.rb
  | .x => s.rx

/-- `x[r] <- v` (R10, R21): none of the three is hardwired. -/
def State.setReg (s : State) (r : Reg) (v : Word) : State :=
  match r with
  | .a => { s with ra := v }
  | .b => { s with rb := v }
  | .x => { s with rx := v }

/-! ## The end of an instruction -/

/-- `commit(t)`: `IP` and the bus address are set to the carried address and `instr_state` returns to 0 (R136). -/
def State.commit (s : State) (t : Word) : State := { s with ip := t, busAddr := t, instrState := 0 }

/-- The settle cycle restores the direction and data-out lines to idle (R147). -/
def State.settle (s : State) : State := { s with busRw := .read, busDataOut := 0 }

/-- The scratch cells an instruction used are 0 again when it completes (R33). -/
def State.clearScratch (s : State) : State := { s with tmp1 := 0, tmp2 := 0 }

/-- The scratch cell that carried a value across cycles is 0 again (R33, R240). -/
def State.clearTmp1 (s : State) : State := { s with tmp1 := 0 }

/-! ## Stack Unit -/

/-- `PUSH(v)` and its write: the value goes to the cell at `SP`, then `SP` goes down by one modulo 2^32 (R26, R145). -/
def State.push (s : State) (v : Word) : State := { s.memWrite s.sp v with sp := s.sp - 1 }

/-- `POP()`: `SP` goes up by one modulo 2^32 (R26, R146). -/
def State.pop (s : State) : State := { s with sp := s.sp + 1 }

/-- What a `POP()` reads: the cell at the new `SP` (R146). -/
def State.popped (s : State) : Word := s.memRead (s.sp + 1)

/-! ## ALU -/

/-- Request an ALU operation on a register and a second operand and apply the answer: flags always, the register unless
the operation was undefined (R141, R142). -/
def State.aluReg (s : State) (op : AluOp) (r : Reg) (v : Word) : State :=
  let ans := alu op (s.getReg r) v
  let s' := { s with flags := s.flags.apply ans.update }
  if ans.commits then s'.setReg r ans.result else s'

/-- Load a register and write ZERO from the loaded value (R31, D9). -/
def State.loadReg (s : State) (r : Reg) (v : Word) : State :=
  { s with flags := s.flags.afterLoad v }.setReg r v

/-- Write one flag and nothing else (R172 to R181, D30). -/
def State.putFlag (s : State) (f : Flag) (b : Bool) : State := { s with flags := s.flags.put f b }

/-! ## Reset -/

/-- Every register at its reset value (R42, middle column; R336); memory is not touched (R337). -/
def State.resetRegisters (s : State) : State :=
  { s with
    ra := 0, rb := 0, rx := 0, ip := 0, sp := s.params.spInit, qp := 0, ir := 0, flags := Flags.clear
    tmp1 := 0, tmp2 := 0, tmp3 := 0, resetState := .rs0, instrState := 0
    busAddr := 0, busDataOut := 0, busRw := .read }

end Sys2Proof.Machine
end

