-- ==== Sys2Proof/Machine/Operands.lean ====
section
/-! DEFINITION. The operand forms of the instruction set (spec rules R103 to R105, R280) and the shapes that consume them
at the level of whole instructions (R170, R200, R220, R240, R260). -/

namespace Sys2Proof.Machine

/-! ## Operands of `MOVE` -/

/-- The source value of a `MOVE`: a register, or one read of the cell (R281). -/
def State.readOperand (s : State) : MoveOperand → Word
  | .reg r => s.getReg r
  | .cell addr => s.memRead addr

/-- The write of a `MOVE`: a register, or "exactly one write if the destination is memory", after which the settle cycle
restores the bus lines (R281). -/
def State.writeOperand (s : State) (dst : MoveOperand) (v : Word) : State :=
  match dst with
  | .reg r => s.setReg r v
  | .cell addr => (s.memWrite addr v).settle

/-! ## Shapes -/

/-- What every meaning answers: the state after its commit. No instruction can fault (R300). -/
abbrev Answer := Host.Outcome State Fault Refusal

/-- The end of a sequential instruction of `words` words whose opcode word is at the `IP` of `s`: `effect` and the commit to
the next instruction (R24). -/
def sequential (words : Word) (effect : State → State) (s : State) : Answer :=
  .next ((effect s).commit (s.ip + words))

/-- The operand of an absolute instruction: the content of the cell whose address is in the operand word (R104, R220). -/
def State.absolute (s : State) (addr : Word) : Word := s.memRead addr

/-- A push instruction: the Stack Unit's `PUSH`, then the settle cycle (R240). -/
def pushShape (r : Reg) (s : State) : Answer :=
  sequential 1 (fun s => (s.push (s.getReg r)).settle) s

/-- A pop instruction: the Stack Unit's `POP`, then the popped value to the register; no flag is written (R240, D9). -/
def popShape (r : Reg) (s : State) : Answer :=
  sequential 1 (fun s => (s.pop.setReg r s.popped).settle) s

/-- A conditional jump: to the target if the flag has the wanted value, else past the operand word (R260, D31). -/
def jumpShape (f : Flag) (wanted : Bool) (target : Word) (s : State) : Answer :=
  .next (s.commit (if s.flags.get f = wanted then target else s.ip + 2))

end Sys2Proof.Machine
end

