-- ==== Sys2Proof/Machine/Absolute.lean ====
section
/-! DEFINITION. The absolute family (spec rules R220 to R229): the word after the opcode word is the address of the operand (R104). -/

namespace Sys2Proof.Machine

/-- `LOAD_ABS_A` (R221). -/
def execLoadAbsA (addr : Word) (s : State) : Answer := sequential 2 (fun s => s.loadReg .a (s.absolute addr)) s

/-- `LOAD_ABS_B` (R222). -/
def execLoadAbsB (addr : Word) (s : State) : Answer := sequential 2 (fun s => s.loadReg .b (s.absolute addr)) s

/-- `LOAD_ABS_X` (R223). -/
def execLoadAbsX (addr : Word) (s : State) : Answer := sequential 2 (fun s => s.loadReg .x (s.absolute addr)) s

/-- `ADD_A_ABSOLUTE` (R224). -/
def execAddAAbsolute (addr : Word) (s : State) : Answer :=
  sequential 2 (fun s => s.aluReg .add .a (s.absolute addr)) s

/-- `ADD_B_ABSOLUTE` (R225). -/
def execAddBAbsolute (addr : Word) (s : State) : Answer :=
  sequential 2 (fun s => s.aluReg .add .b (s.absolute addr)) s

/-- `ADD_X_ABSOLUTE` (R226). -/
def execAddXAbsolute (addr : Word) (s : State) : Answer :=
  sequential 2 (fun s => s.aluReg .add .x (s.absolute addr)) s

/-- `SUB_A_ABSOLUTE` (R227). -/
def execSubAAbsolute (addr : Word) (s : State) : Answer :=
  sequential 2 (fun s => s.aluReg .sub .a (s.absolute addr)) s

/-- `SUB_B_ABSOLUTE` (R228). -/
def execSubBAbsolute (addr : Word) (s : State) : Answer :=
  sequential 2 (fun s => s.aluReg .sub .b (s.absolute addr)) s

/-- `SUB_X_ABSOLUTE` (R229). -/
def execSubXAbsolute (addr : Word) (s : State) : Answer :=
  sequential 2 (fun s => s.aluReg .sub .x (s.absolute addr)) s

end Sys2Proof.Machine
end

