-- ==== Sys2Proof/Machine/Branch.lean ====
section
/-! DEFINITION. The branch family (spec rules R260 to R271): the jump and the ten conditional jumps. -/

namespace Sys2Proof.Machine

/-- `JUMP` (R261). -/
def execJump (target : Word) (s : State) : Answer := .next (s.commit target)

/-- `JUMP_IF_ZERO` (R262). -/
def execJumpIfZero (target : Word) (s : State) : Answer := jumpShape .zero true target s

/-- `JUMP_IF_NOT_ZERO` (R263). -/
def execJumpIfNotZero (target : Word) (s : State) : Answer := jumpShape .zero false target s

/-- `JUMP_IF_CARRY` (R264). -/
def execJumpIfCarry (target : Word) (s : State) : Answer := jumpShape .carry true target s

/-- `JUMP_IF_NOT_CARRY` (R265). -/
def execJumpIfNotCarry (target : Word) (s : State) : Answer := jumpShape .carry false target s

/-- `JUMP_IF_NEGATIVE` (R266). -/
def execJumpIfNegative (target : Word) (s : State) : Answer := jumpShape .negative true target s

/-- `JUMP_IF_NOT_NEGATIVE` (R267). -/
def execJumpIfNotNegative (target : Word) (s : State) : Answer := jumpShape .negative false target s

/-- `JUMP_IF_ERROR` (R268). -/
def execJumpIfError (target : Word) (s : State) : Answer := jumpShape .error true target s

/-- `JUMP_IF_NOT_ERROR` (R269). -/
def execJumpIfNotError (target : Word) (s : State) : Answer := jumpShape .error false target s

/-- `JUMP_IF_OVERFLOW` (R270). -/
def execJumpIfOverflow (target : Word) (s : State) : Answer := jumpShape .overflow true target s

/-- `JUMP_IF_NOT_OVERFLOW` (R271). -/
def execJumpIfNotOverflow (target : Word) (s : State) : Answer := jumpShape .overflow false target s

end Sys2Proof.Machine
end

