-- ==== Sys2Proof/Machine/Immediate.lean ====
section
/-! DEFINITION. The immediate family (spec rules R200 to R209): the operand is the whole word after the opcode word (R103). -/

namespace Sys2Proof.Machine

/-- `LOAD_IMM_A` (R201). -/
def execLoadImmA (imm : Word) (s : State) : Answer := sequential 2 (fun s => s.loadReg .a imm) s

/-- `LOAD_IMM_B` (R202). -/
def execLoadImmB (imm : Word) (s : State) : Answer := sequential 2 (fun s => s.loadReg .b imm) s

/-- `LOAD_IMM_X` (R203). -/
def execLoadImmX (imm : Word) (s : State) : Answer := sequential 2 (fun s => s.loadReg .x imm) s

/-- `ADD_A_IMMEDIATE` (R204). -/
def execAddAImmediate (imm : Word) (s : State) : Answer := sequential 2 (fun s => s.aluReg .add .a imm) s

/-- `ADD_B_IMMEDIATE` (R205). -/
def execAddBImmediate (imm : Word) (s : State) : Answer := sequential 2 (fun s => s.aluReg .add .b imm) s

/-- `ADD_X_IMMEDIATE` (R206). -/
def execAddXImmediate (imm : Word) (s : State) : Answer := sequential 2 (fun s => s.aluReg .add .x imm) s

/-- `SUB_A_IMMEDIATE` (R207). -/
def execSubAImmediate (imm : Word) (s : State) : Answer := sequential 2 (fun s => s.aluReg .sub .a imm) s

/-- `SUB_B_IMMEDIATE` (R208). -/
def execSubBImmediate (imm : Word) (s : State) : Answer := sequential 2 (fun s => s.aluReg .sub .b imm) s

/-- `SUB_X_IMMEDIATE` (R209). -/
def execSubXImmediate (imm : Word) (s : State) : Answer := sequential 2 (fun s => s.aluReg .sub .x imm) s

end Sys2Proof.Machine
end

