-- ==== Sys2Proof/Machine/Move.lean ====
section
/-! DEFINITION. The indirect move (spec rules R280, R281). -/

namespace Sys2Proof.Machine

/-- `MOVE` (R281): the source is resolved first, then the destination is written; no flag is written (D9). The scratch cells
the protocol used are 0 again (R33). -/
def execMove (src dst : MoveOperand) (s : State) : Answer :=
  sequential 3 (fun s => (s.writeOperand dst (s.readOperand src)).clearScratch) s

end Sys2Proof.Machine
end

