-- ==== Sys2Proof/Machine/Stack.lean ====
section
/-! DEFINITION. The stack family (spec rules R240 to R248): push, pop, call and return. -/

namespace Sys2Proof.Machine

/-- `PUSH_A` (R241). -/
def execPushA (s : State) : Answer := pushShape .a s

/-- `PUSH_B` (R242). -/
def execPushB (s : State) : Answer := pushShape .b s

/-- `PUSH_X` (R243). -/
def execPushX (s : State) : Answer := pushShape .x s

/-- `POP_A` (R244). -/
def execPopA (s : State) : Answer := popShape .a s

/-- `POP_B` (R245). -/
def execPopB (s : State) : Answer := popShape .b s

/-- `POP_X` (R246). -/
def execPopX (s : State) : Answer := popShape .x s

/-- `CALL` (R247): push the address of the word after the operand word, `a0 + 2`, and jump to the target. The scratch cell
that held the target is 0 again (R240). -/
def execCall (target : Word) (s : State) : Answer :=
  .next ((s.push (s.ip + 2)).settle.clearTmp1.commit target)

/-- `RETURN` (R248): pop one word into `IP` and restore nothing else. -/
def execRet (s : State) : Answer := .next (s.pop.settle.commit s.popped)

end Sys2Proof.Machine
end

