-- ==== Sys2Proof/Machine/ZeroOperand.lean ====
section
/-! DEFINITION. The zero-operand family (spec rules R170 to R187): `NOP`, flag set and clear, increment and decrement. -/

namespace Sys2Proof.Machine

/-- `NOP` (R171), also what every unassigned opcode word executes as (R112): only `IP` advances. -/
def execNop (s : State) : Answer := sequential 1 id s

/-- `SET_ZERO` (R172). -/
def execSetZero (s : State) : Answer := sequential 1 (fun s => s.putFlag .zero true) s

/-- `CLEAR_ZERO` (R173). -/
def execClearZero (s : State) : Answer := sequential 1 (fun s => s.putFlag .zero false) s

/-- `SET_CARRY` (R174). -/
def execSetCarry (s : State) : Answer := sequential 1 (fun s => s.putFlag .carry true) s

/-- `CLEAR_CARRY` (R175). -/
def execClearCarry (s : State) : Answer := sequential 1 (fun s => s.putFlag .carry false) s

/-- `SET_NEGATIVE` (R176). -/
def execSetNegative (s : State) : Answer := sequential 1 (fun s => s.putFlag .negative true) s

/-- `CLEAR_NEGATIVE` (R177). -/
def execClearNegative (s : State) : Answer := sequential 1 (fun s => s.putFlag .negative false) s

/-- `SET_ERROR` (R178). -/
def execSetError (s : State) : Answer := sequential 1 (fun s => s.putFlag .error true) s

/-- `CLEAR_ERROR` (R179). -/
def execClearError (s : State) : Answer := sequential 1 (fun s => s.putFlag .error false) s

/-- `SET_OVERFLOW` (R180). -/
def execSetOverflow (s : State) : Answer := sequential 1 (fun s => s.putFlag .overflow true) s

/-- `CLEAR_OVERFLOW` (R181). -/
def execClearOverflow (s : State) : Answer := sequential 1 (fun s => s.putFlag .overflow false) s

/-- `INC_A` (R182): the ALU operation INC on `RA`. -/
def execIncA (s : State) : Answer := sequential 1 (fun s => s.aluReg .inc .a 0) s

/-- `INC_B` (R183): the ALU operation INC on `RB`. -/
def execIncB (s : State) : Answer := sequential 1 (fun s => s.aluReg .inc .b 0) s

/-- `INC_X` (R184): the ALU operation INC on `RX`. -/
def execIncX (s : State) : Answer := sequential 1 (fun s => s.aluReg .inc .x 0) s

/-- `DEC_A` (R185): the ALU operation DEC on `RA`. -/
def execDecA (s : State) : Answer := sequential 1 (fun s => s.aluReg .dec .a 0) s

/-- `DEC_B` (R186): the ALU operation DEC on `RB`. -/
def execDecB (s : State) : Answer := sequential 1 (fun s => s.aluReg .dec .b 0) s

/-- `DEC_X` (R187): the ALU operation DEC on `RX`. -/
def execDecX (s : State) : Answer := sequential 1 (fun s => s.aluReg .dec .x 0) s

end Sys2Proof.Machine
end

