-- ==== Sys2Proof/Machine/Dispatch.lean ====
section
/-! DEFINITION. One arm per constructor of `Instr`, each one call of its meaning (spec rule R134). -/

namespace Sys2Proof.Machine

def exec (i : Instr) (s : State) : Host.Outcome State Fault Refusal :=
  match i with
  | .nop => Sys2Proof.Machine.execNop s
  | .setZero => Sys2Proof.Machine.execSetZero s
  | .clearZero => Sys2Proof.Machine.execClearZero s
  | .setCarry => Sys2Proof.Machine.execSetCarry s
  | .clearCarry => Sys2Proof.Machine.execClearCarry s
  | .setNegative => Sys2Proof.Machine.execSetNegative s
  | .clearNegative => Sys2Proof.Machine.execClearNegative s
  | .setError => Sys2Proof.Machine.execSetError s
  | .clearError => Sys2Proof.Machine.execClearError s
  | .setOverflow => Sys2Proof.Machine.execSetOverflow s
  | .clearOverflow => Sys2Proof.Machine.execClearOverflow s
  | .incA => Sys2Proof.Machine.execIncA s
  | .incB => Sys2Proof.Machine.execIncB s
  | .incX => Sys2Proof.Machine.execIncX s
  | .decA => Sys2Proof.Machine.execDecA s
  | .decB => Sys2Proof.Machine.execDecB s
  | .decX => Sys2Proof.Machine.execDecX s
  | .loadImmA imm => Sys2Proof.Machine.execLoadImmA imm s
  | .loadImmB imm => Sys2Proof.Machine.execLoadImmB imm s
  | .loadImmX imm => Sys2Proof.Machine.execLoadImmX imm s
  | .addAImmediate imm => Sys2Proof.Machine.execAddAImmediate imm s
  | .addBImmediate imm => Sys2Proof.Machine.execAddBImmediate imm s
  | .addXImmediate imm => Sys2Proof.Machine.execAddXImmediate imm s
  | .subAImmediate imm => Sys2Proof.Machine.execSubAImmediate imm s
  | .subBImmediate imm => Sys2Proof.Machine.execSubBImmediate imm s
  | .subXImmediate imm => Sys2Proof.Machine.execSubXImmediate imm s
  | .loadAbsA addr => Sys2Proof.Machine.execLoadAbsA addr s
  | .loadAbsB addr => Sys2Proof.Machine.execLoadAbsB addr s
  | .loadAbsX addr => Sys2Proof.Machine.execLoadAbsX addr s
  | .addAAbsolute addr => Sys2Proof.Machine.execAddAAbsolute addr s
  | .addBAbsolute addr => Sys2Proof.Machine.execAddBAbsolute addr s
  | .addXAbsolute addr => Sys2Proof.Machine.execAddXAbsolute addr s
  | .subAAbsolute addr => Sys2Proof.Machine.execSubAAbsolute addr s
  | .subBAbsolute addr => Sys2Proof.Machine.execSubBAbsolute addr s
  | .subXAbsolute addr => Sys2Proof.Machine.execSubXAbsolute addr s
  | .pushA => Sys2Proof.Machine.execPushA s
  | .pushB => Sys2Proof.Machine.execPushB s
  | .pushX => Sys2Proof.Machine.execPushX s
  | .popA => Sys2Proof.Machine.execPopA s
  | .popB => Sys2Proof.Machine.execPopB s
  | .popX => Sys2Proof.Machine.execPopX s
  | .call target => Sys2Proof.Machine.execCall target s
  | .ret => Sys2Proof.Machine.execRet s
  | .jump target => Sys2Proof.Machine.execJump target s
  | .jumpIfZero target => Sys2Proof.Machine.execJumpIfZero target s
  | .jumpIfNotZero target => Sys2Proof.Machine.execJumpIfNotZero target s
  | .jumpIfCarry target => Sys2Proof.Machine.execJumpIfCarry target s
  | .jumpIfNotCarry target => Sys2Proof.Machine.execJumpIfNotCarry target s
  | .jumpIfNegative target => Sys2Proof.Machine.execJumpIfNegative target s
  | .jumpIfNotNegative target => Sys2Proof.Machine.execJumpIfNotNegative target s
  | .jumpIfError target => Sys2Proof.Machine.execJumpIfError target s
  | .jumpIfNotError target => Sys2Proof.Machine.execJumpIfNotError target s
  | .jumpIfOverflow target => Sys2Proof.Machine.execJumpIfOverflow target s
  | .jumpIfNotOverflow target => Sys2Proof.Machine.execJumpIfNotOverflow target s
  | .move src dst => Sys2Proof.Machine.execMove src dst s

end Sys2Proof.Machine
end

