-- ==== Sys2Proof/Machine/Ports.lean ====
section
/-! DEFINITION. What the host sees at the core's boundary: the bus port and the transaction it presents (spec rules R61, R62),
and the read-only diagnostic port (R312). -/

namespace Sys2Proof.Machine

/-- The bus output lines of R61. -/
structure BusPort where
  address : Word
  dataOut : Word
  direction : BitVec 1
deriving DecidableEq, Repr

/-- The direction line as a bit: 0 is read, 1 is write (R37). -/
def BusDir.toBit : BusDir → BitVec 1
  | .read => 0
  | .write => 1

/-- The registers drive the lines directly (R37). -/
def State.busPort (s : State) : BusPort := ⟨s.busAddr, s.busDataOut, s.busRw.toBit⟩

/-- One bus transaction: exactly one cell is read or written (R67). -/
inductive Transaction where
  | read (addr : Word)
  | write (addr v : Word)
deriving DecidableEq, Repr

/-- The transaction presented during the cycle (R62): "whenever no write is being requested the port presents a read of
whatever address `bus_addr` holds" (R61). -/
def State.presented (s : State) : Transaction :=
  match s.busRw with
  | .read => .read s.busAddr
  | .write => .write s.busAddr s.busDataOut

/-- `data_in`, the host's answer at the tick that ends the cycle (R38, R65). During a write it is unspecified (U11). -/
def State.dataIn (s : State) : Word :=
  match s.busRw with
  | .read => s.memRead s.busAddr
  | .write => Config.dataInDuringWrite s.busAddr s.busDataOut

/-- The transaction that retires at a tick: the presented one, unless the reset input or a wait state is asserted (R62,
R70, R337). -/
def State.retiring (s : State) (l : Lines) : Option Transaction :=
  if l.rst || l.stall then none else some s.presented

/-- The host's memory after a tick: a retired write takes effect, anything else leaves it alone (R62, R64). -/
def State.retire (s : State) (l : Lines) : State :=
  match s.retiring l with
  | some (.write addr v) => s.memWrite addr v
  | some (.read _) => s
  | none => s

/-- The diagnostic port of R312, combinational copies valid in every cycle. -/
structure DiagPort where
  ip : Word
  ir : Word
  ra : Word
  rb : Word
  rx : Word
  flags : BitVec 5
  instrState : BitVec 3
deriving DecidableEq, Repr

/-- The diagnostic port of a state (R312). It has no inputs, so there is no operation in the other direction. -/
def State.diagPort (s : State) : DiagPort := ⟨s.ip, s.ir, s.ra, s.rb, s.rx, s.flags.toBits, s.instrState⟩

/-- The five flags shown in a container of `n` bits: "bits 5 and up read as 0" (R30). -/
def DiagPort.flagsIn (d : DiagPort) (n : Nat) : BitVec n := d.flags.setWidth n

end Sys2Proof.Machine
end

