-- ==== Sys2Proof/Machine/Protocol.lean ====
section
/-! DEFINITION. The per-opcode protocols at the cycle level (spec rules R11, R133 to R136 and the cycle table of every shape). A
row is what the step function decides in one cycle; the tables are written from the spec's own tables and share nothing with
the whole-instruction meanings but the ALU and the flag updates. -/

namespace Sys2Proof.Machine

/-- A request to the Stack Unit (R145, R146). -/
inductive StackRequest where
  | push (v : Word)
  | pop
deriving DecidableEq, Repr

/-- One row of a cycle table: at most one assignment to each register (R135), at most one Stack Unit request, and the
end-of-instruction pulse with its payload, which is not a register (R36). -/
structure CycleRow where
  ra : Option Word := none
  rb : Option Word := none
  rx : Option Word := none
  flags : Option Flags := none
  ip : Option Word := none
  tmp1 : Option Word := none
  tmp2 : Option Word := none
  busAddr : Option Word := none
  busDataOut : Option Word := none
  busRw : Option BusDir := none
  stack : Option StackRequest := none
  commit : Option Word := none
deriving DecidableEq, Repr

/-- A row that also writes a general register. -/
def CycleRow.withReg (row : CycleRow) (r : Reg) (v : Word) : CycleRow :=
  match r with
  | .a => { row with ra := some v }
  | .b => { row with rb := some v }
  | .x => { row with rx := some v }

/-- The register writes a Stack Unit request stands for, with the old value of `SP` on every right-hand side (R145, R146). -/
def State.stackUnit (s : State) (sp : Word) : Option StackRequest → State
  | none => s
  | some (.push v) => { s with busAddr := sp, busDataOut := v, busRw := .write, sp := sp - 1 }
  | some .pop => { s with sp := sp + 1, busAddr := sp + 1, busRw := .read }

/-- Apply a row at a tick: all its assignments take effect together, a register not named keeps its value, and `instr_state`
goes up by one unless the row commits, which overrides (R11, R133, R136). -/
def CycleRow.apply (row : CycleRow) (s : State) : State :=
  let written :=
    { s with
      ra := row.ra.getD s.ra, rb := row.rb.getD s.rb, rx := row.rx.getD s.rx, flags := row.flags.getD s.flags
      ip := row.ip.getD s.ip, tmp1 := row.tmp1.getD s.tmp1, tmp2 := row.tmp2.getD s.tmp2
      busAddr := row.busAddr.getD s.busAddr, busDataOut := row.busDataOut.getD s.busDataOut
      busRw := row.busRw.getD s.busRw, instrState := s.instrState + 1 }
  let requested := written.stackUnit s.sp row.stack
  match row.commit with
  | some t => requested.commit t
  | none => requested

/-- The step function of an instruction (R133): a row for each `instr_state` from the registers and `data_in`, or no row.
It reads the registers of the state only; memory reaches it through `data_in` (R135). -/
abbrev CycleTable := Nat → State → Word → Option CycleRow

/-- The row that advances `IP` to the next word and addresses it (R200, cycle 1). -/
def advanceRow (s : State) : CycleRow := { ip := some (s.ip + 1), busAddr := some (s.ip + 1) }

/-- The settle row: the lines return to idle and the instruction commits (R147). -/
def settleRow (t : Word) : CycleRow := { busRw := some .read, busDataOut := some 0, commit := some t }

/-- The writes of an ALU request in one cycle (R135, R141, R142). -/
def aluRow (op : AluOp) (r : Reg) (s : State) (v : Word) : CycleRow :=
  let ans := alu op (s.getReg r) v
  let row : CycleRow := { flags := some (s.flags.apply ans.update) }
  if ans.commits then row.withReg r ans.result else row

/-- The writes of a load (R201, R221). -/
def loadRow (r : Reg) (s : State) (v : Word) : CycleRow :=
  CycleRow.withReg { flags := some (s.flags.afterLoad v) } r v

/-- The zero-operand table (R170). -/
def zeroOperandTable (effect : State → CycleRow) : CycleTable := fun k s _ =>
  match k with
  | 1 => some { effect s with commit := some (s.ip + 1) }
  | _ => none

/-- The immediate table (R200). -/
def immediateTable (effect : State → Word → CycleRow) : CycleTable := fun k s d =>
  match k with
  | 1 => some (advanceRow s)
  | 2 => some { effect s d with commit := some (s.ip + 1) }
  | _ => none

/-- The absolute table (R220): cycle 2 routes the fetched word to the address register. -/
def absoluteTable (effect : State → Word → CycleRow) : CycleTable := fun k s d =>
  match k with
  | 1 => some (advanceRow s)
  | 2 => some { busAddr := some d }
  | 3 => some { effect s d with commit := some (s.ip + 1) }
  | _ => none

/-- The push table (R240). -/
def pushTable (r : Reg) : CycleTable := fun k s _ =>
  match k with
  | 1 => some { stack := some (.push (s.getReg r)) }
  | 2 => some (settleRow (s.ip + 1))
  | _ => none

/-- The pop table of `POP_r` (R240). -/
def popTable (r : Reg) : CycleTable := fun k s d =>
  match k with
  | 1 => some { stack := some .pop }
  | 2 => some ((settleRow (s.ip + 1)).withReg r d)
  | _ => none

/-- The pop table of `RETURN` (R240). -/
def returnTable : CycleTable := fun k _ d =>
  match k with
  | 1 => some { stack := some .pop }
  | 2 => some (settleRow d)
  | _ => none

/-- The call table (R240): the target waits in `tmp1` while the return address is pushed. -/
def callTable : CycleTable := fun k s d =>
  match k with
  | 1 => some (advanceRow s)
  | 2 => some { tmp1 := some d, stack := some (.push (s.ip + 1)) }
  | 3 => some { settleRow s.tmp1 with tmp1 := some 0 }
  | _ => none

/-- The branch table (R260); the condition is evaluated in cycle 1. -/
def branchTable (cond : Flags → Bool) : CycleTable := fun k s d =>
  match k with
  | 1 => some (if cond s.flags then advanceRow s else { commit := some (s.ip + 2) })
  | 2 => some { commit := some d }
  | _ => none

/-- The table of `MOVE` (R281). -/
def moveTable : CycleTable := fun k s d =>
  match k with
  | 1 => some (advanceRow s)
  | 2 => some { tmp2 := some d, ip := some (s.ip + 1), busAddr := if (regOfId? d).isSome then none else some d }
  | 3 =>
    let v := match regOfId? s.tmp2 with
      | some r => s.getReg r
      | none => d
    some { tmp1 := some v, busAddr := some s.ip }
  | 4 =>
    match regOfId? d with
    | some r => some (CycleRow.withReg { tmp1 := some 0, tmp2 := some 0, commit := some (s.ip + 1) } r s.tmp1)
    | none => some { busAddr := some d, busDataOut := some s.tmp1, busRw := some .write }
  | 5 => some { settleRow (s.ip + 1) with tmp1 := some 0, tmp2 := some 0 }
  | _ => none

/-- The protocol of each instruction, the `step` of its descriptor (R107). The operands of the syntax play no part: the protocol
reads its own operand words. -/
def cycleTable : Instr → CycleTable
  | .nop => zeroOperandTable fun _ => {}
  | .setZero => zeroOperandTable fun s => { flags := some (s.flags.put .zero true) }
  | .clearZero => zeroOperandTable fun s => { flags := some (s.flags.put .zero false) }
  | .setCarry => zeroOperandTable fun s => { flags := some (s.flags.put .carry true) }
  | .clearCarry => zeroOperandTable fun s => { flags := some (s.flags.put .carry false) }
  | .setNegative => zeroOperandTable fun s => { flags := some (s.flags.put .negative true) }
  | .clearNegative => zeroOperandTable fun s => { flags := some (s.flags.put .negative false) }
  | .setError => zeroOperandTable fun s => { flags := some (s.flags.put .error true) }
  | .clearError => zeroOperandTable fun s => { flags := some (s.flags.put .error false) }
  | .setOverflow => zeroOperandTable fun s => { flags := some (s.flags.put .overflow true) }
  | .clearOverflow => zeroOperandTable fun s => { flags := some (s.flags.put .overflow false) }
  | .incA => zeroOperandTable fun s => aluRow .inc .a s 0
  | .incB => zeroOperandTable fun s => aluRow .inc .b s 0
  | .incX => zeroOperandTable fun s => aluRow .inc .x s 0
  | .decA => zeroOperandTable fun s => aluRow .dec .a s 0
  | .decB => zeroOperandTable fun s => aluRow .dec .b s 0
  | .decX => zeroOperandTable fun s => aluRow .dec .x s 0
  | .loadImmA _ => immediateTable (loadRow .a)
  | .loadImmB _ => immediateTable (loadRow .b)
  | .loadImmX _ => immediateTable (loadRow .x)
  | .addAImmediate _ => immediateTable (aluRow .add .a)
  | .addBImmediate _ => immediateTable (aluRow .add .b)
  | .addXImmediate _ => immediateTable (aluRow .add .x)
  | .subAImmediate _ => immediateTable (aluRow .sub .a)
  | .subBImmediate _ => immediateTable (aluRow .sub .b)
  | .subXImmediate _ => immediateTable (aluRow .sub .x)
  | .loadAbsA _ => absoluteTable (loadRow .a)
  | .loadAbsB _ => absoluteTable (loadRow .b)
  | .loadAbsX _ => absoluteTable (loadRow .x)
  | .addAAbsolute _ => absoluteTable (aluRow .add .a)
  | .addBAbsolute _ => absoluteTable (aluRow .add .b)
  | .addXAbsolute _ => absoluteTable (aluRow .add .x)
  | .subAAbsolute _ => absoluteTable (aluRow .sub .a)
  | .subBAbsolute _ => absoluteTable (aluRow .sub .b)
  | .subXAbsolute _ => absoluteTable (aluRow .sub .x)
  | .pushA => pushTable .a
  | .pushB => pushTable .b
  | .pushX => pushTable .x
  | .popA => popTable .a
  | .popB => popTable .b
  | .popX => popTable .x
  | .call _ => callTable
  | .ret => returnTable
  | .jump _ => branchTable fun _ => true
  | .jumpIfZero _ => branchTable fun f => f.get .zero
  | .jumpIfNotZero _ => branchTable fun f => !f.get .zero
  | .jumpIfCarry _ => branchTable fun f => f.get .carry
  | .jumpIfNotCarry _ => branchTable fun f => !f.get .carry
  | .jumpIfNegative _ => branchTable fun f => f.get .negative
  | .jumpIfNotNegative _ => branchTable fun f => !f.get .negative
  | .jumpIfError _ => branchTable fun f => f.get .error
  | .jumpIfNotError _ => branchTable fun f => !f.get .error
  | .jumpIfOverflow _ => branchTable fun f => f.get .overflow
  | .jumpIfNotOverflow _ => branchTable fun f => !f.get .overflow
  | .move _ _ => moveTable

/-- `dispatch(IR)` of R134 at the cycle level: the protocol of the instruction whose opcode word is in `IR`. -/
def State.protocol (s : State) : CycleTable := cycleTable (decode s.ir 0 0)

/-- The row of the current execute cycle, where the protocol has one. -/
def State.currentRow (s : State) (dataIn : Word) : Option CycleRow := s.protocol s.instrState.toNat s dataIn

/-- `end_instr_flag` and `end_instr_addr` of the cycle that ends at a tick with the given levels, combinational outputs (R36):
the payload of the commit, or `none` in a cycle without one. The step function runs at an un-stalled tick with `rst` inactive
only (R131), so a wait state puts the pulse off and a reset takes it away. -/
def State.endInstr (s : State) (l : Lines) : Option Word :=
  if l.rst || l.stall then none
  else if s.resetState = .run ∧ s.instrState ≠ 0 then (s.currentRow s.dataIn).bind (·.commit)
  else none

end Sys2Proof.Machine
end

