-- ==== Sys2Proof/Machine/Tick.lean ====
section
/-! DEFINITION. One clock tick of the core (spec rule R131), with the reset sequencer (R331), and runs of ticks. -/

namespace Sys2Proof.Machine

/-- The reset sequencer's two cycles (R331): address `BOOT_ADDR`, then take the start address, from `data_in` in vectored
mode. In `run` the sequence is over. -/
def State.resetCycle (s : State) (dataIn : Word) : State :=
  match s.resetState with
  | .rs0 =>
    { s with
      busAddr := s.params.bootAddr, busRw := .read, busDataOut := 0, tmp1 := 0, tmp2 := 0, tmp3 := 0
      resetState := .rs1 }
  | .rs1 =>
    let start := if s.params.vectored then dataIn else s.params.bootAddr
    { s with ip := start, busAddr := start, instrState := 0, resetState := .run }
  | .run => s

/-- The fetch cycle: latch the read word into `IR` and go to execute cycle 1 (R132). -/
def State.fetchCycle (s : State) (dataIn : Word) : State := { s with ir := dataIn, instrState := 1 }

/-- An execute cycle: apply the row of the dispatched protocol (R133). -/
def State.executeCycle (s : State) (dataIn : Word) : Answer :=
  match s.currentRow dataIn with
  | some row => .next (row.apply s)
  | none => .fault (.noCycleRow s.ir s.instrState)

/-- `tick(state, rst, stall, data_in)` of R131, case by case: what the registers of the core become. -/
def tickRegisters (s : State) (l : Lines) (dataIn : Word) : Answer :=
  if l.rst then .next s.resetRegisters
  else if l.stall then .next s
  else if s.resetState ≠ .run then .next (s.resetCycle dataIn)
  else if s.instrState = 0 then .next (s.fetchCycle dataIn)
  else s.executeCycle dataIn

/-- One tick of the core and its host: the presented transaction retires (or not), and the registers take their next values
from the values before the tick and the answer of the host (R62, R131). -/
def tick (l : Lines) (s : State) : Answer := tickRegisters (s.retire l) l s.dataIn

/-- Ticks with the given levels of the lines, the first element first. -/
def tickLines : List Lines → State → Answer
  | [], s => .next s
  | l :: rest, s =>
    match tick l s with
    | .next t => tickLines rest t
    | .fault f => .fault f
    | .refused r => .refused r

/-- Ticks with both lines inactive. -/
def ticks (n : Nat) (s : State) : Answer := tickLines (List.replicate n Lines.quiet) s

/-- The transactions that retire in a run of ticks, in order (R72). -/
def busTrace : List Lines → State → List Transaction
  | [], _ => []
  | l :: rest, s =>
    (s.retiring l).toList ++
      match tick l s with
      | .next t => busTrace rest t
      | .fault _ => []
      | .refused _ => []

/-- The payloads of the end-of-instruction pulses in a run of ticks, in order (R36). -/
def endTrace : List Lines → State → List Word
  | [], _ => []
  | l :: rest, s =>
    (s.endInstr l).toList ++
      match tick l s with
      | .next t => endTrace rest t
      | .fault _ => []
      | .refused _ => []

/-- The instruction-boundary invariant (R44): a fetch cycle, with the port presenting a read at `IP` and nothing left in the
data-out lines or the scratch cells. -/
def State.atBoundary (s : State) : Bool :=
  decide (s.resetState = .run) && decide (s.instrState = 0) && decide (s.busAddr = s.ip) && decide (s.busRw = .read) &&
    decide (s.busDataOut = 0) && decide (s.tmp1 = 0) && decide (s.tmp2 = 0) && decide (s.tmp3 = 0)

end Sys2Proof.Machine
end

