-- ==== Sys2Proof/Machine/Fetch.lean ====
section
/-! DEFINITION. The fetch of a whole instruction (spec rules R101, R132), its run from fetch to commit (R139), and placing an
instruction where the next step fetches it. -/

namespace Sys2Proof.Machine

/-- The instruction at `IP`: its opcode word and the two words after it, read through the port and decoded (R101, R104). The
operand words an instruction does not have are not looked at. -/
def State.fetchInstr (s : State) : Instr :=
  decode (s.memRead s.ip) (s.memRead (s.ip + 1)) (s.memRead (s.ip + 2))

/-- The fetch latches the whole opcode word into `IR` (R29, R132). -/
def State.latch (s : State) : State := { s with ir := s.memRead s.ip }

/-- One whole instruction, from the tick that fetches its opcode to the tick that commits it (R8, R139). -/
def runInstruction (s : State) : Answer := exec s.fetchInstr s.latch

/-- The parameters with one more cell mapped, if it is not mapped already. -/
def Params.mapping (p : Params) (a : Word) : Params :=
  if Params.maps p a then p else { p with regions := ⟨a.toNat, 1⟩ :: p.regions }

/-- The state with a cell mapped and holding a word: the host placing a program word (R340). -/
def State.placeWord (s : State) (a v : Word) : State :=
  { s with params := Params.mapping s.params a, mem := s.mem.writeCell a v }

/-- The state at the boundary where the instruction at `IP` is fetched next (R44), with no line of the host active. -/
def State.readyToFetch (s : State) : State :=
  { s with
    resetState := .run, instrState := 0, busAddr := s.ip, busRw := .read, busDataOut := 0
    tmp1 := 0, tmp2 := 0, tmp3 := 0, lines := [] }

/-- The state with three words placed at `IP` and about to be fetched. -/
def State.placeProgram (s : State) (w0 w1 w2 : Word) : State :=
  (((s.placeWord s.ip w0).placeWord (s.ip + 1) w1).placeWord (s.ip + 2) w2).readyToFetch

end Sys2Proof.Machine
end

