-- ==== Sys2Proof/Machine/Step.lean ====
section
/-! DEFINITION. One step of the machine. At an instruction boundary with the host's lines inactive, a step is one whole
instruction (the spec's Level A, R8); everywhere else it is one clock tick (Level C, R131). -/

namespace Sys2Proof.Machine

/-- One step: a tick with the next scheduled levels of `rst` and `stall`; with none scheduled, one whole instruction at a
boundary, and one tick of the reset sequencer or of the instruction under way elsewhere (log entry 4). -/
def step (s : State) : Host.Outcome State Fault Refusal :=
  match s.lines with
  | l :: rest => tick l { s with lines := rest }
  | [] => if s.atBoundary then runInstruction s else tick Lines.quiet s

/-- The state with the instruction whose low `nbits` bits are `w` at `IP`, fetched by the very next step (log entry 6). -/
def State.withFetchWord (s : State) (nbits w : Nat) : State :=
  s.placeProgram (tableWord nbits w 0) (tableWord nbits w 1) (tableWord nbits w 2)

end Sys2Proof.Machine
end

