-- ==== Sys2Proof/Machine/Timing.lean ====
section
/-! DEFINITION. Timing and bus activity of one instruction as the spec tabulates them (spec rules R72, R73, R346), stated apart
from the cycle tables so that the two can be compared. -/

namespace Sys2Proof.Machine

/-- The un-stalled cycles of an instruction, from its fetch cycle to its commit cycle inclusive (R346). -/
def instrCycles (i : Instr) (s : State) : Nat :=
  match i with
  | .nop | .setZero | .clearZero | .setCarry | .clearCarry | .setNegative | .clearNegative | .setError
  | .clearError | .setOverflow | .clearOverflow | .incA | .incB | .incX | .decA | .decB | .decX => 2
  | .loadImmA _ | .loadImmB _ | .loadImmX _ | .addAImmediate _ | .addBImmediate _ | .addXImmediate _
  | .subAImmediate _ | .subBImmediate _ | .subXImmediate _ => 3
  | .loadAbsA _ | .loadAbsB _ | .loadAbsX _ | .addAAbsolute _ | .addBAbsolute _ | .addXAbsolute _
  | .subAAbsolute _ | .subBAbsolute _ | .subXAbsolute _ => 4
  | .pushA | .pushB | .pushX => 3
  | .popA | .popB | .popX | .ret => 3
  | .call _ => 4
  | .jump _ => 3
  | .jumpIfZero _ => if s.flags.zero then 3 else 2
  | .jumpIfNotZero _ => if s.flags.zero then 2 else 3
  | .jumpIfCarry _ => if s.flags.carry then 3 else 2
  | .jumpIfNotCarry _ => if s.flags.carry then 2 else 3
  | .jumpIfNegative _ => if s.flags.negative then 3 else 2
  | .jumpIfNotNegative _ => if s.flags.negative then 2 else 3
  | .jumpIfError _ => if s.flags.error then 3 else 2
  | .jumpIfNotError _ => if s.flags.error then 2 else 3
  | .jumpIfOverflow _ => if s.flags.overflow then 3 else 2
  | .jumpIfNotOverflow _ => if s.flags.overflow then 2 else 3
  | .move _ (.reg _) => 5
  | .move _ (.cell _) => 6

/-- The transactions of the fetch cycle and execute cycle 1: the opcode word is read twice (R72). -/
def openingReads (a0 : Word) : List Transaction := [.read a0, .read a0]

/-- The transactions of a jump: the operand word is read only when the jump is taken (R260). -/
def jumpReads (taken : Bool) (a0 : Word) : List Transaction :=
  openingReads a0 ++ if taken then [.read (a0 + 1)] else []

/-- The third and fourth read of a `MOVE`: its source word, then the source cell, or the source word again (R281). -/
def sourceReads (a0 : Word) : MoveOperand → List Transaction
  | .reg _ => [.read (a0 + 1), .read (a0 + 1)]
  | .cell addr => [.read (a0 + 1), .read addr]

/-- The write of a `MOVE`: one if the destination is memory, none if it is a register (R281). -/
def destinationWrites (v : Word) : MoveOperand → List Transaction
  | .reg _ => []
  | .cell addr => [.write addr v]

/-- The transaction stream of an instruction whose opcode word is at the `IP` of `s`, in order of retirement, with no stall
(R72, R73, and the tables of R170, R200, R220, R240, R260, R281). -/
def instrStream (i : Instr) (s : State) : List Transaction :=
  match i with
  | .nop | .setZero | .clearZero | .setCarry | .clearCarry | .setNegative | .clearNegative | .setError
  | .clearError | .setOverflow | .clearOverflow | .incA | .incB | .incX | .decA | .decB | .decX => openingReads s.ip
  | .loadImmA _ | .loadImmB _ | .loadImmX _ | .addAImmediate _ | .addBImmediate _ | .addXImmediate _
  | .subAImmediate _ | .subBImmediate _ | .subXImmediate _ => openingReads s.ip ++ [.read (s.ip + 1)]
  | .loadAbsA addr | .loadAbsB addr | .loadAbsX addr | .addAAbsolute addr | .addBAbsolute addr
  | .addXAbsolute addr | .subAAbsolute addr | .subBAbsolute addr | .subXAbsolute addr =>
    openingReads s.ip ++ [.read (s.ip + 1), .read addr]
  | .pushA => openingReads s.ip ++ [.write s.sp s.ra]
  | .pushB => openingReads s.ip ++ [.write s.sp s.rb]
  | .pushX => openingReads s.ip ++ [.write s.sp s.rx]
  | .popA | .popB | .popX | .ret => openingReads s.ip ++ [.read (s.sp + 1)]
  | .call _ => openingReads s.ip ++ [.read (s.ip + 1), .write s.sp (s.ip + 2)]
  | .jump _ => jumpReads true s.ip
  | .jumpIfZero _ => jumpReads s.flags.zero s.ip
  | .jumpIfNotZero _ => jumpReads (!s.flags.zero) s.ip
  | .jumpIfCarry _ => jumpReads s.flags.carry s.ip
  | .jumpIfNotCarry _ => jumpReads (!s.flags.carry) s.ip
  | .jumpIfNegative _ => jumpReads s.flags.negative s.ip
  | .jumpIfNotNegative _ => jumpReads (!s.flags.negative) s.ip
  | .jumpIfError _ => jumpReads s.flags.error s.ip
  | .jumpIfNotError _ => jumpReads (!s.flags.error) s.ip
  | .jumpIfOverflow _ => jumpReads s.flags.overflow s.ip
  | .jumpIfNotOverflow _ => jumpReads (!s.flags.overflow) s.ip
  | .move src dst =>
    openingReads s.ip ++ sourceReads s.ip src ++ [.read (s.ip + 2)] ++ destinationWrites (s.readOperand src) dst

end Sys2Proof.Machine
end

