-- ==== Sys2Proof/Machine/Views.lean ====
section
/-! DEFINITION. The sub-range views of a 32-bit register (spec rule R22). A view is not separate state. No instruction of the
instruction set uses one (D27); they are here because the spec's register file exposes them. -/

namespace Sys2Proof.Machine

/-- The views of R22: the two 16-bit halves and the four bytes. -/
inductive SubRange where
  | lo16 | hi16 | b0 | b1 | b2 | b3
deriving DecidableEq, Repr

/-- The lowest bit of a view (R22). -/
def SubRange.low : SubRange → Nat
  | .lo16 | .b0 => 0
  | .b1 => 8
  | .hi16 | .b2 => 16
  | .b3 => 24

/-- The number of bits of a view (R22). -/
def SubRange.width : SubRange → Nat
  | .lo16 | .hi16 => 16
  | .b0 | .b1 | .b2 | .b3 => 8

/-- The bits of a word that a view shows. -/
def SubRange.read (v : SubRange) (w : Word) : BitVec v.width := w.extractLsb' v.low v.width

/-- The word with the bits of a view replaced: "writing a view writes those bits of `R` and leaves the other bits
unchanged" (R22). -/
def SubRange.write (v : SubRange) (w : Word) (bits : BitVec v.width) : Word :=
  (w &&& ~~~((BitVec.allOnes v.width).setWidth 32 <<< v.low)) ||| (bits.setWidth 32 <<< v.low)

/-- Read a view of a general register. -/
def State.readView (s : State) (r : Reg) (v : SubRange) : BitVec v.width := v.read (s.getReg r)

/-- Write a view of a general register. -/
def State.writeView (s : State) (r : Reg) (v : SubRange) (bits : BitVec v.width) : State :=
  s.setReg r (v.write (s.getReg r) bits)

end Sys2Proof.Machine
end

