-- ==== Sys2Proof/Safety.lean ====
section
/-! DEFINITION. The terms in which statements about the machine are made: the state a program can observe, what holds at the
boundaries and inside of instructions, when a program has ended, and who may write what (spec rules R8, R31, R33, R44, R73,
R341). -/

namespace Sys2Proof.Machine

/-! ## The Level A state -/

/-- The architectural state of R8 with the memory: `RA, RB, RX, IP, SP, QP, Flags` and `M`. -/
structure ArchState where
  ra : Word
  rb : Word
  rx : Word
  ip : Word
  sp : Word
  qp : Word
  flags : Flags
  mem : Memory
deriving DecidableEq, Repr

/-- The Level A part of a state (R8). -/
def State.arch (s : State) : ArchState := ⟨s.ra, s.rb, s.rx, s.ip, s.sp, s.qp, s.flags, s.mem⟩

/-! ## Programs in memory -/

/-- The cells from `IP` on hold the words of an instruction (R101). -/
def State.holdsInstr (s : State) (i : Instr) : Prop :=
  ∀ k w, (encode i)[k]? = some w → s.memRead (s.ip + BitVec.ofNat 32 k) = w

/-- "The program has ended" (R341): at a fetch cycle with `IP = e`, where the cells `e` and `e + 1` hold `JUMP e`. R341 writes
`M[end]` and `M[end + 1]`, and R64 defines `M` on mapped addresses only. DESIGN CHOICE (log entry 20): the two cells are read
through the port, so at `e = 0xFFFFFFFF` an unmapped cell 0, which reads as all ones, counts as holding `e`. -/
def State.ended (e : Word) (s : State) : Prop :=
  s.atBoundary = true ∧ s.ip = e ∧ s.memRead e = 0x50 ∧ s.memRead (e + 1) = e

/-! ## Inside an instruction -/

/-- The bus lines are idle (R37). -/
def State.linesIdle (s : State) : Bool := decide (s.busRw = .read) && decide (s.busDataOut = 0)

/-- The scratch cells `tmp1` and `tmp2` are 0. -/
def State.scratchZero (s : State) : Bool := decide (s.tmp1 = 0) && decide (s.tmp2 = 0)

/-- The port presents a read of the word at `IP`, with nothing in the data-out lines or the scratch cells. -/
def State.readsAtIp (s : State) : Bool := decide (s.busAddr = s.ip) && s.linesIdle && s.scratchZero

/-- What holds in execute cycle `k` of an instruction (R33, R44 and the cycle tables of R170, R200, R220, R240, R260, R281). -/
def cycleShape (i : Instr) (k : Nat) (s : State) : Bool :=
  match i with
  | .nop | .setZero | .clearZero | .setCarry | .clearCarry | .setNegative | .clearNegative | .setError
  | .clearError | .setOverflow | .clearOverflow | .incA | .incB | .incX | .decA | .decB | .decX => decide (k = 1) && s.readsAtIp
  | .loadImmA _ | .loadImmB _ | .loadImmX _ | .addAImmediate _ | .addBImmediate _ | .addXImmediate _
  | .subAImmediate _ | .subBImmediate _ | .subXImmediate _ | .jump _ | .jumpIfZero _ | .jumpIfNotZero _
  | .jumpIfCarry _ | .jumpIfNotCarry _ | .jumpIfNegative _ | .jumpIfNotNegative _ | .jumpIfError _
  | .jumpIfNotError _ | .jumpIfOverflow _ | .jumpIfNotOverflow _ =>
    (decide (k = 1) || decide (k = 2)) && s.readsAtIp
  | .loadAbsA _ | .loadAbsB _ | .loadAbsX _ | .addAAbsolute _ | .addBAbsolute _ | .addXAbsolute _
  | .subAAbsolute _ | .subBAbsolute _ | .subXAbsolute _ =>
    (decide (k = 1) || decide (k = 2)) && s.readsAtIp || decide (k = 3) && s.linesIdle && s.scratchZero
  | .pushA | .pushB | .pushX =>
    decide (k = 1) && s.readsAtIp || decide (k = 2) && decide (s.busRw = .write) && s.scratchZero
  | .popA | .popB | .popX | .ret =>
    decide (k = 1) && s.readsAtIp || decide (k = 2) && s.linesIdle && s.scratchZero
  | .call _ =>
    (decide (k = 1) || decide (k = 2)) && s.readsAtIp ||
      decide (k = 3) && decide (s.busRw = .write) && decide (s.tmp2 = 0)
  | .move _ _ =>
    (decide (k = 1) || decide (k = 2)) && s.readsAtIp || decide (k = 3) && s.linesIdle && decide (s.tmp1 = 0) ||
      decide (k = 4) && s.linesIdle && decide (s.busAddr = s.ip) || decide (k = 5) && decide (s.busRw = .write)

/-- The invariant of the cycle level: in the reset sequence every register has its reset value but those the sequencer has
written (R42, R331); after it the machine is at an instruction boundary (R44) or in a cycle its protocol has a row for. -/
def State.protocolInv (s : State) : Bool :=
  decide (s.tmp3 = 0) &&
    match s.resetState with
    | .rs0 => decide (s = s.resetRegisters)
    | .rs1 => decide (s = { s.resetRegisters with busAddr := s.params.bootAddr, resetState := .rs1 })
    | .run => if s.instrState = 0 then s.atBoundary else cycleShape (decode s.ir 0 0) s.instrState.toNat s

/-! ## Who writes and reads what -/

/-- The flags an instruction writes, from the table of R31. -/
def flagsWritten (i : Instr) : List Flag :=
  match i with
  | .incA | .incB | .incX | .decA | .decB | .decX | .addAImmediate _ | .addBImmediate _ | .addXImmediate _
  | .subAImmediate _ | .subBImmediate _ | .subXImmediate _ | .addAAbsolute _ | .addBAbsolute _
  | .addXAbsolute _ | .subAAbsolute _ | .subBAbsolute _ | .subXAbsolute _ => [.zero, .negative]
  | .loadImmA _ | .loadImmB _ | .loadImmX _ | .loadAbsA _ | .loadAbsB _ | .loadAbsX _ => [.zero]
  | .setZero | .clearZero => [.zero]
  | .setCarry | .clearCarry => [.carry]
  | .setNegative | .clearNegative => [.negative]
  | .setError | .clearError => [.error]
  | .setOverflow | .clearOverflow => [.overflow]
  | .nop | .pushA | .pushB | .pushX | .popA | .popB | .popX | .call _ | .ret | .jump _ | .jumpIfZero _
  | .jumpIfNotZero _ | .jumpIfCarry _ | .jumpIfNotCarry _ | .jumpIfNegative _ | .jumpIfNotNegative _
  | .jumpIfError _ | .jumpIfNotError _ | .jumpIfOverflow _ | .jumpIfNotOverflow _ | .move _ _ => []

/-- The flags an instruction reads, from the table of R31. -/
def flagsRead (i : Instr) : List Flag :=
  match i with
  | .jumpIfZero _ | .jumpIfNotZero _ => [.zero]
  | .jumpIfCarry _ | .jumpIfNotCarry _ => [.carry]
  | .jumpIfNegative _ | .jumpIfNotNegative _ => [.negative]
  | .jumpIfError _ | .jumpIfNotError _ => [.error]
  | .jumpIfOverflow _ | .jumpIfNotOverflow _ => [.overflow]
  | .nop | .setZero | .clearZero | .setCarry | .clearCarry | .setNegative | .clearNegative | .setError
  | .clearError | .setOverflow | .clearOverflow | .incA | .incB | .incX | .decA | .decB | .decX | .loadImmA _
  | .loadImmB _ | .loadImmX _ | .addAImmediate _ | .addBImmediate _ | .addXImmediate _ | .subAImmediate _
  | .subBImmediate _ | .subXImmediate _ | .loadAbsA _ | .loadAbsB _ | .loadAbsX _ | .addAAbsolute _
  | .addBAbsolute _ | .addXAbsolute _ | .subAAbsolute _ | .subBAbsolute _ | .subXAbsolute _ | .pushA | .pushB
  | .pushX | .popA | .popB | .popX | .call _ | .ret | .jump _ | .move _ _ => []

/-- The general registers an instruction writes: those its mnemonic names (R21), and the destination register of a `MOVE`. -/
def regsWritten (i : Instr) : List Reg :=
  match i with
  | .incA | .decA | .loadImmA _ | .addAImmediate _ | .subAImmediate _ | .loadAbsA _ | .addAAbsolute _
  | .subAAbsolute _ | .popA => [.a]
  | .incB | .decB | .loadImmB _ | .addBImmediate _ | .subBImmediate _ | .loadAbsB _ | .addBAbsolute _
  | .subBAbsolute _ | .popB => [.b]
  | .incX | .decX | .loadImmX _ | .addXImmediate _ | .subXImmediate _ | .loadAbsX _ | .addXAbsolute _
  | .subXAbsolute _ | .popX => [.x]
  | .nop | .setZero | .clearZero | .setCarry | .clearCarry | .setNegative | .clearNegative | .setError
  | .clearError | .setOverflow | .clearOverflow | .pushA | .pushB | .pushX | .call _ | .ret | .jump _
  | .jumpIfZero _ | .jumpIfNotZero _ | .jumpIfCarry _ | .jumpIfNotCarry _ | .jumpIfNegative _
  | .jumpIfNotNegative _ | .jumpIfError _ | .jumpIfNotError _ | .jumpIfOverflow _ | .jumpIfNotOverflow _ => []
  | .move _ (.reg r) => [r]
  | .move _ (.cell _) => []

/-- The value of `SP` after an instruction: only the Stack Unit moves it, for the eight instructions of R25. -/
def nextSp (i : Instr) (s : State) : Word :=
  match i with
  | .pushA | .pushB | .pushX | .call _ => s.sp - 1
  | .popA | .popB | .popX | .ret => s.sp + 1
  | .nop | .setZero | .clearZero | .setCarry | .clearCarry | .setNegative | .clearNegative | .setError
  | .clearError | .setOverflow | .clearOverflow | .incA | .incB | .incX | .decA | .decB | .decX | .loadImmA _
  | .loadImmB _ | .loadImmX _ | .addAImmediate _ | .addBImmediate _ | .addXImmediate _ | .subAImmediate _
  | .subBImmediate _ | .subXImmediate _ | .loadAbsA _ | .loadAbsB _ | .loadAbsX _ | .addAAbsolute _
  | .addBAbsolute _ | .addXAbsolute _ | .subAAbsolute _ | .subBAbsolute _ | .subXAbsolute _ | .jump _
  | .jumpIfZero _ | .jumpIfNotZero _ | .jumpIfCarry _ | .jumpIfNotCarry _ | .jumpIfNegative _
  | .jumpIfNotNegative _ | .jumpIfError _ | .jumpIfNotError _ | .jumpIfOverflow _ | .jumpIfNotOverflow _
  | .move _ _ => s.sp

/-- The one cell an instruction stores to: "always the result of a Stack Unit `PUSH` request or of the final step of `MOVE`"
(R73). -/
def storeAddress (i : Instr) (s : State) : Option Word :=
  match i with
  | .pushA | .pushB | .pushX | .call _ => some s.sp
  | .move _ (.cell addr) => some addr
  | .move _ (.reg _) => none
  | .nop | .setZero | .clearZero | .setCarry | .clearCarry | .setNegative | .clearNegative | .setError
  | .clearError | .setOverflow | .clearOverflow | .incA | .incB | .incX | .decA | .decB | .decX | .loadImmA _
  | .loadImmB _ | .loadImmX _ | .addAImmediate _ | .addBImmediate _ | .addXImmediate _ | .subAImmediate _
  | .subBImmediate _ | .subXImmediate _ | .loadAbsA _ | .loadAbsB _ | .loadAbsX _ | .addAAbsolute _
  | .addBAbsolute _ | .addXAbsolute _ | .subAAbsolute _ | .subBAbsolute _ | .subXAbsolute _ | .popA | .popB
  | .popX | .ret | .jump _ | .jumpIfZero _ | .jumpIfNotZero _ | .jumpIfCarry _ | .jumpIfNotCarry _
  | .jumpIfNegative _ | .jumpIfNotNegative _ | .jumpIfError _ | .jumpIfNotError _ | .jumpIfOverflow _
  | .jumpIfNotOverflow _ => none

/-- Where an instruction sends control when it does not go on to the next word (R24): the target of a taken jump or of a `CALL`,
the popped word of a `RETURN`. -/
def transferTarget (i : Instr) (s : State) : Option Word :=
  match i with
  | .jump target | .call target => some target
  | .ret => some (s.memRead (s.sp + 1))
  | .jumpIfZero target => if s.flags.zero then some target else none
  | .jumpIfNotZero target => if s.flags.zero then none else some target
  | .jumpIfCarry target => if s.flags.carry then some target else none
  | .jumpIfNotCarry target => if s.flags.carry then none else some target
  | .jumpIfNegative target => if s.flags.negative then some target else none
  | .jumpIfNotNegative target => if s.flags.negative then none else some target
  | .jumpIfError target => if s.flags.error then some target else none
  | .jumpIfNotError target => if s.flags.error then none else some target
  | .jumpIfOverflow target => if s.flags.overflow then some target else none
  | .jumpIfNotOverflow target => if s.flags.overflow then none else some target
  | .nop | .setZero | .clearZero | .setCarry | .clearCarry | .setNegative | .clearNegative | .setError
  | .clearError | .setOverflow | .clearOverflow | .incA | .incB | .incX | .decA | .decB | .decX | .loadImmA _
  | .loadImmB _ | .loadImmX _ | .addAImmediate _ | .addBImmediate _ | .addXImmediate _ | .subAImmediate _
  | .subBImmediate _ | .subXImmediate _ | .loadAbsA _ | .loadAbsB _ | .loadAbsX _ | .addAAbsolute _
  | .addBAbsolute _ | .addXAbsolute _ | .subAAbsolute _ | .subBAbsolute _ | .subXAbsolute _ | .pushA | .pushB
  | .pushX | .popA | .popB | .popX | .move _ _ => none

end Sys2Proof.Machine
end

