-- ==== Sys2Proof/Certificates/Slice0/Obligations.lean ====
section
/-! DEFINITION. The statements for the provers: what the rules of the spec say the instructions and the machine do. The words
they are written in stand first, in `Sys2Proof.Claims`. -/

namespace Sys2Proof.Claims

open Sys2Proof Sys2Proof.Machine

/-! ## The instructions by family -/

/-- The number of a register in an opcode: 0 = A, 1 = B, 2 = X (R111). -/
def regNumber : Reg → Word
  | .a => 0
  | .b => 1
  | .x => 2

/-- The place of a flag in the order of listing: ZERO, CARRY, NEGATIVE, ERROR, OVERFLOW (R30). -/
def flagNumber : Flag → Word
  | .zero => 0
  | .carry => 1
  | .negative => 2
  | .error => 3
  | .overflow => 4

/-- `SET_f`. -/
def setOf : Flag → Instr
  | .zero => .setZero
  | .carry => .setCarry
  | .negative => .setNegative
  | .error => .setError
  | .overflow => .setOverflow

/-- `CLEAR_f`. -/
def clearOf : Flag → Instr
  | .zero => .clearZero
  | .carry => .clearCarry
  | .negative => .clearNegative
  | .error => .clearError
  | .overflow => .clearOverflow

/-- `INC_r`. -/
def incOf : Reg → Instr
  | .a => .incA
  | .b => .incB
  | .x => .incX

/-- `DEC_r`. -/
def decOf : Reg → Instr
  | .a => .decA
  | .b => .decB
  | .x => .decX

/-- `LOAD_IMM_r imm`. -/
def loadImmOf (imm : Word) : Reg → Instr
  | .a => .loadImmA imm
  | .b => .loadImmB imm
  | .x => .loadImmX imm

/-- `ADD_r_IMMEDIATE imm`. -/
def addImmOf (imm : Word) : Reg → Instr
  | .a => .addAImmediate imm
  | .b => .addBImmediate imm
  | .x => .addXImmediate imm

/-- `SUB_r_IMMEDIATE imm`. -/
def subImmOf (imm : Word) : Reg → Instr
  | .a => .subAImmediate imm
  | .b => .subBImmediate imm
  | .x => .subXImmediate imm

/-- `LOAD_ABS_r [addr]`. -/
def loadAbsOf (addr : Word) : Reg → Instr
  | .a => .loadAbsA addr
  | .b => .loadAbsB addr
  | .x => .loadAbsX addr

/-- `ADD_r_ABSOLUTE [addr]`. -/
def addAbsOf (addr : Word) : Reg → Instr
  | .a => .addAAbsolute addr
  | .b => .addBAbsolute addr
  | .x => .addXAbsolute addr

/-- `SUB_r_ABSOLUTE [addr]`. -/
def subAbsOf (addr : Word) : Reg → Instr
  | .a => .subAAbsolute addr
  | .b => .subBAbsolute addr
  | .x => .subXAbsolute addr

/-- `PUSH_r`. -/
def pushOf : Reg → Instr
  | .a => .pushA
  | .b => .pushB
  | .x => .pushX

/-- `POP_r`. -/
def popOf : Reg → Instr
  | .a => .popA
  | .b => .popB
  | .x => .popX

/-- `JUMP_IF_f target`. -/
def jumpIfOf (target : Word) : Flag → Instr
  | .zero => .jumpIfZero target
  | .carry => .jumpIfCarry target
  | .negative => .jumpIfNegative target
  | .error => .jumpIfError target
  | .overflow => .jumpIfOverflow target

/-- `JUMP_IF_NOT_f target`. -/
def jumpIfNotOf (target : Word) : Flag → Instr
  | .zero => .jumpIfNotZero target
  | .carry => .jumpIfNotCarry target
  | .negative => .jumpIfNotNegative target
  | .error => .jumpIfNotError target
  | .overflow => .jumpIfNotOverflow target

/-! ## Frames -/

/-- Every general register but the listed ones is unchanged. -/
def SameRegs (s t : State) (except : List Reg) : Prop := ∀ r, r ∉ except → t.getReg r = s.getReg r

/-- Every flag but the listed ones is unchanged. -/
def SameFlags (s t : State) (except : List Flag) : Prop := ∀ f, f ∉ except → t.flags.get f = s.flags.get f

/-- Every cell but the one at `store`, where there is one, reads as before. -/
def SameMemory (s t : State) (store : Option Word) : Prop := ∀ a, store ≠ some a → t.memRead a = s.memRead a

/-- The registers no instruction's execution writes, the parameters and the scheduled lines are unchanged. -/
def SameRest (s t : State) : Prop :=
  t.qp = s.qp ∧ t.ir = s.ir ∧ t.tmp3 = s.tmp3 ∧ t.resetState = s.resetState ∧ t.params = s.params ∧ t.lines = s.lines

/-- The frame of an instruction that may write the listed registers and flags and store to the given cell. -/
def Frame (s t : State) (regs : List Reg) (flags : List Flag) (store : Option Word) : Prop :=
  SameRegs s t regs ∧ SameFlags s t flags ∧ SameMemory s t store ∧ SameRest s t

/-- The data-out and direction lines and the scratch cells are unchanged. -/
def SameLines (s t : State) : Prop :=
  t.busRw = s.busRw ∧ t.busDataOut = s.busDataOut ∧ t.tmp1 = s.tmp1 ∧ t.tmp2 = s.tmp2

/-- The commit (R136): `IP` and the bus address are the carried address and `instr_state` is 0. -/
def CommitsTo (t : State) (next : Word) : Prop := t.ip = next ∧ t.busAddr = next ∧ t.instrState = 0

/-- ZERO and NEGATIVE describe a result (R140): it is 0, its signed reading is negative. -/
def ZeroNegativeOf (t : State) (result : Word) : Prop :=
  (t.flags.zero = true ↔ result = 0) ∧ (t.flags.negative = true ↔ result.toInt < 0)

/-- The opcode word of an instruction. -/
def opcodeWord (i : Instr) : Word := (encode i).headD 0

/-- The cycle protocol of an instruction: from a boundary with its words at `IP`, un-stalled ticks lead through the listed states,
one after each tick, and one tick more gives `t` with the opcode word in `IR`; the ticks retire the listed transactions. -/
def RetiresIn (i : Instr) (cycles : List State) (stream : List Transaction) (s t : State) : Prop :=
  s.atBoundary = true → s.holdsInstr i →
    (∀ k u, cycles[k]? = some u → ticks (k + 1) s = .next u) ∧
    ticks (cycles.length + 1) s = .next { t with ir := opcodeWord i } ∧
    busTrace (List.replicate (cycles.length + 1) Lines.quiet) s = stream

/-- After the fetch tick: execute cycle 1 of every shape (R132). -/
def fetched (i : Instr) (s : State) : State := { s with ir := opcodeWord i, instrState := 1 }

/-- After cycle 1 of a shape that reads an operand word (R200, R220, R260, R281): `IP` and the address are at the operand. -/
def atOperand (i : Instr) (s : State) : State :=
  { fetched i s with instrState := 2, ip := s.ip + 1, busAddr := s.ip + 1 }

/-- After cycle 2 of the absolute shape (R220): the operand word is in the address register. -/
def atCell (i : Instr) (addr : Word) (s : State) : State := { atOperand i s with instrState := 3, busAddr := addr }

/-- After the request of a push (R145): the write is presented and `SP` has moved. -/
def requestsPush (k : BitVec 3) (v : Word) (s : State) : State :=
  { s with instrState := k, busAddr := s.sp, busDataOut := v, busRw := .write, sp := s.sp - 1 }

/-- After the request of a pop (R146): the read at the new `SP` is presented. -/
def requestsPop (k : BitVec 3) (s : State) : State := { s with instrState := k, busAddr := s.sp + 1, sp := s.sp + 1 }

/-- After cycle 2 of a `MOVE` (R281): the source word waits in `tmp2`, and is in the address register if it names a cell. -/
def movesFrom (i : Instr) (src : MoveOperand) (s : State) : State :=
  { atOperand i s with
    instrState := 3, ip := s.ip + 2, tmp2 := src.toWord
    busAddr := match src with
      | .reg _ => s.ip + 1
      | .cell addr => addr }

/-- After cycle 3 of a `MOVE` (R281): the source value waits in `tmp1` and the address is at the destination word. -/
def movesTo (i : Instr) (src : MoveOperand) (v : Word) (s : State) : State :=
  { movesFrom i src s with instrState := 4, tmp1 := v, busAddr := s.ip + 2 }

/-- After cycle 4 of a `MOVE` to a cell (R281): the write is presented. -/
def movesOut (i : Instr) (src : MoveOperand) (v a : Word) (s : State) : State :=
  { movesTo i src v s with instrState := 5, busAddr := a, busDataOut := v, busRw := .write }

/-- The address of the fourth read of a `MOVE` (R281): the source cell, or the source word once more. -/
def sourceAddress (src : MoveOperand) (s : State) : Word :=
  match src with
  | .reg _ => s.ip + 1
  | .cell addr => addr

/-- The final result of a store, at the level of the host: the cell reads as the value if it is mapped, and as before if not. -/
def Stored (s t : State) (a v : Word) : Prop :=
  (Params.maps s.params a = true → s.mem.wf = true → t.memRead a = v) ∧
    (Params.maps s.params a = false → t.memRead a = s.memRead a)

/-- A state with `QP` replaced. -/
def withQp (q : Word) (s : State) : State := { s with qp := q }

/-- The outcome with its next state changed. -/
def mapNext (f : State → State) : Answer → Answer
  | .next s => .next (f s)
  | .fault r => .fault r
  | .refused r => .refused r

/-- The un-stalled ticks among scheduled lines. -/
def unstalled (ls : List Lines) : Nat := (ls.filter fun l => !l.stall).length

end Sys2Proof.Claims

open Sys2Proof Sys2Proof.Machine Sys2Proof.Claims

/-! ## Encoding -/

/-- A few words written out from R110 decode to their instructions (one for each family), whatever words follow. -/
def Obligations.TableWordsDecode : Prop :=
  ∀ p q : Word,
    decode 0x00 p q = .nop ∧ decode 0x09 p q = .setOverflow ∧ decode 0x16 p q = .decX ∧
    decode 0x24 p q = .addAImmediate p ∧ decode 0x31 p q = .loadAbsB p ∧ decode 0x40 p q = .pushA ∧
    decode 0x49 p q = .ret ∧ decode 0x56 p q = .jumpIfNotNegative p ∧
    decode 0x60 0xFFFFFFF1 0x80 = .move (.reg .b) (.cell 0x80)

/-- R100, R101, R105: decoding the words of a well-formed instruction, whatever follows them, gives the instruction and exactly
what follows. -/
def Obligations.DecodeOfEncodeIsTheInstruction : Prop :=
  ∀ (i : Instr) (rest : List Word), i.wellFormed = true → decodeList (encode i ++ rest) = .ok (i, rest)

/-- R102, R105, R110: where a list of words starts with an assigned opcode and decodes, encoding the instruction gives back the
words it was read from, and the instruction is well formed. No bit of a word is dropped. -/
def Obligations.EncodeOfDecodeIsTheWords : Prop :=
  ∀ (w : Word) (ws : List Word) (i : Instr) (rest : List Word), (lookup w).isSome = true →
    decodeList (w :: ws) = .ok (i, rest) → encode i ++ rest = w :: ws ∧ i.wellFormed = true

/-- R106: the opcode word alone tells the length, and the instruction has exactly its declared length of words; an unassigned
opcode has length 1. -/
def Obligations.OpcodeWordTellsTheLength : Prop :=
  ∀ w p q : Word,
    ((lookup w).isSome = true → decodeLength w = (encode (decode w p q)).length) ∧
    ((lookup w).isSome = false → decodeLength w = 1) ∧
    (decodeLength w = 1 ∨ decodeLength w = 2 ∨ decodeLength w = 3)

/-- R280: an operand word of `MOVE` names a register iff it is one of the three register ids; any other value, such as
`0xFFFFFFF3` or the all-ones word, is the address of a cell. -/
def Obligations.OperandWordNamesRegisterOrCell : Prop :=
  ∀ w : Word,
    (isRegId w = true ↔ w = 0xFFFFFFF0 ∨ w = 0xFFFFFFF1 ∨ w = 0xFFFFFFF2) ∧
    (w = 0xFFFFFFF0 → MoveOperand.ofWord w = .reg .a) ∧ (w = 0xFFFFFFF1 → MoveOperand.ofWord w = .reg .b) ∧
    (w = 0xFFFFFFF2 → MoveOperand.ofWord w = .reg .x) ∧ (isRegId w = false → MoveOperand.ofWord w = .cell w)

/-- R303: a registry is built exactly where no two rows share an opcode or a name, and it then holds the rows; the table of R110
is such a registry. -/
def Obligations.RegistryBuildsIffInjective : Prop :=
  (∀ rows : List Descriptor, (∃ r, buildRegistry rows = .ok r) ↔
    (rows.map (·.opcode)).Nodup ∧ (rows.map (·.name)).Nodup) ∧
  (∀ rows r : List Descriptor, buildRegistry rows = .ok r → r = rows) ∧
  buildRegistry registryRows = .ok registryRows

/-! ## Steps and instructions -/

/-- R101, R139: at a boundary with no line of the host scheduled, where the cells from `IP` on decode to an instruction, a
step is that instruction's meaning on the state with its opcode word latched. That no line is scheduled is said of the
model's own field (log entry 4). -/
def Obligations.StepRunsTheDecodedInstruction : Prop :=
  ∀ (s : State) (i : Instr) (rest : List Word), s.lines = [] → s.atBoundary = true →
    decodeList [s.memRead s.ip, s.memRead (s.ip + 1), s.memRead (s.ip + 2)] = .ok (i, rest) →
    step s = exec i { s with ir := s.memRead s.ip }

/-- R101, R139: at a boundary whose cells from `IP` on hold the words of a well-formed instruction, a step is that
instruction's meaning. That no line is scheduled is said of the model's own field (log entry 4). -/
def Obligations.StepRunsTheInstructionHeldAtIp : Prop :=
  ∀ (s : State) (i : Instr), i.wellFormed = true → s.lines = [] → s.atBoundary = true → s.holdsInstr i →
    step s = exec i { s with ir := (encode i).headD 0 }

/-- R300: no instruction traps, faults or aborts: from every state each retires with a next state. -/
def Obligations.EveryInstructionRetires : Prop := ∀ (i : Instr) (s : State), ∃ t, exec i s = .next t

/-- R112: each unassigned opcode word executes exactly as `NOP`: it decodes to it, and a step at it changes `IP` by one with
the bus address, latches the word, and changes nothing else; it takes two cycles, both of which read the word. That nothing
is scheduled is said of the model's own field (log entry 4). -/
def Obligations.UnassignedOpcodeActsAsNop : Prop :=
  ∀ (w p q : Word), (∀ d ∈ registryRows, d.opcode ≠ w) →
    decode w p q = .nop ∧
    ∀ s : State, s.atBoundary = true → s.memRead s.ip = w →
      (s.lines = [] → step s = .next { s with ir := w, ip := s.ip + 1, busAddr := s.ip + 1 }) ∧
      ticks 2 s = .next { s with ir := w, ip := s.ip + 1, busAddr := s.ip + 1 } ∧
      busTrace [Lines.quiet, Lines.quiet] s = [.read s.ip, .read s.ip]

/-- R80: a fetch from an unmapped address reads all ones, which is no assigned opcode, so `IP` advances by one and nothing
else but `IR` and the bus address changes; an operand word there is all ones too. R80 is the spec's own derivation,
"[derived: from rule R65 and 30_encoding.md rule R112]"; the scheduled lines are the model's own field (log entry 4). -/
def Obligations.UnmappedFetchAdvancesIp : Prop :=
  ∀ s : State, (∀ a, Params.maps s.params a = false → s.memRead a = 0xFFFFFFFF) ∧
    (s.atBoundary = true → s.lines = [] → Params.maps s.params s.ip = false →
      step s = .next { s with ir := 0xFFFFFFFF, ip := s.ip + 1, busAddr := s.ip + 1 })

/-! ## Results and frames, family by family -/

/-- R171: `NOP` is the opcode 0 and what every unassigned opcode decodes to; it advances `IP` by one modulo 2^32 and changes
nothing else, in two cycles. -/
def Obligations.NopOnlyAdvancesIp : Prop :=
  encode .nop = [0x00] ∧
  (∀ w p q : Word, (∀ d ∈ registryRows, d.opcode ≠ w) → decode w p q = .nop) ∧
  ∀ s : State, ∃ t, exec .nop s = .next t ∧
    t.ip.toNat = (s.ip.toNat + 1) % 2 ^ 32 ∧ CommitsTo t t.ip ∧ t.sp = s.sp ∧ Frame s t [] [] none ∧ SameLines s t ∧
    RetiresIn .nop [fetched .nop s] [.read s.ip, .read s.ip] s t

/-- R172 to R181: `SET_f` and `CLEAR_f` write one flag and no other, no register and no cell. -/
def Obligations.FlagInstructionsWriteOneFlag : Prop :=
  ∀ f : Flag, encode (setOf f) = [0x01 + 2 * flagNumber f] ∧ encode (clearOf f) = [0x02 + 2 * flagNumber f] ∧
  ∀ s : State,
    (∃ t, exec (setOf f) s = .next t ∧ t.flags.get f = true ∧ CommitsTo t (s.ip + 1) ∧ t.sp = s.sp ∧
      Frame s t [] [f] none ∧ SameLines s t ∧ RetiresIn (setOf f) [fetched (setOf f) s] [.read s.ip, .read s.ip] s t) ∧
    (∃ t, exec (clearOf f) s = .next t ∧ t.flags.get f = false ∧ CommitsTo t (s.ip + 1) ∧ t.sp = s.sp ∧
      Frame s t [] [f] none ∧ SameLines s t ∧ RetiresIn (clearOf f) [fetched (clearOf f) s] [.read s.ip, .read s.ip] s t)

/-- R182 to R187: `INC_r` and `DEC_r` change their register by one modulo 2^32 and write ZERO and NEGATIVE from the result. -/
def Obligations.IncrementAndDecrementResults : Prop :=
  ∀ r : Reg, encode (incOf r) = [0x10 + regNumber r] ∧ encode (decOf r) = [0x14 + regNumber r] ∧
  ∀ s : State,
    (∃ t, exec (incOf r) s = .next t ∧ (t.getReg r).toNat = ((s.getReg r).toNat + 1) % 2 ^ 32 ∧
      ZeroNegativeOf t (t.getReg r) ∧ CommitsTo t (s.ip + 1) ∧ t.sp = s.sp ∧ Frame s t [r] [.zero, .negative] none ∧
      SameLines s t ∧ RetiresIn (incOf r) [fetched (incOf r) s] [.read s.ip, .read s.ip] s t) ∧
    (∃ t, exec (decOf r) s = .next t ∧ (t.getReg r).toNat = ((s.getReg r).toNat + (2 ^ 32 - 1)) % 2 ^ 32 ∧
      ZeroNegativeOf t (t.getReg r) ∧ CommitsTo t (s.ip + 1) ∧ t.sp = s.sp ∧ Frame s t [r] [.zero, .negative] none ∧
      SameLines s t ∧ RetiresIn (decOf r) [fetched (decOf r) s] [.read s.ip, .read s.ip] s t)

/-- R201 to R203: `LOAD_IMM_r` loads the literal and writes ZERO from it, no other flag. -/
def Obligations.LoadImmediateResults : Prop :=
  ∀ (r : Reg) (imm : Word), encode (loadImmOf imm r) = [0x20 + regNumber r, imm] ∧
  ∀ s : State, ∃ t, exec (loadImmOf imm r) s = .next t ∧ t.getReg r = imm ∧ (t.flags.zero = true ↔ imm = 0) ∧
    CommitsTo t (s.ip + 2) ∧ t.sp = s.sp ∧ Frame s t [r] [.zero] none ∧ SameLines s t ∧
    RetiresIn (loadImmOf imm r) [fetched (loadImmOf imm r) s, atOperand (loadImmOf imm r) s]
        [.read s.ip, .read s.ip, .read (s.ip + 1)] s t

/-- R204 to R209: `ADD_r_IMMEDIATE` and `SUB_r_IMMEDIATE` leave the sum or difference modulo 2^32 and write ZERO and NEGATIVE
from it. -/
def Obligations.ArithmeticImmediateResults : Prop :=
  ∀ (r : Reg) (imm : Word),
  encode (addImmOf imm r) = [0x24 + regNumber r, imm] ∧ encode (subImmOf imm r) = [0x28 + regNumber r, imm] ∧
  ∀ s : State,
    (∃ t, exec (addImmOf imm r) s = .next t ∧ (t.getReg r).toNat = ((s.getReg r).toNat + imm.toNat) % 2 ^ 32 ∧
      ZeroNegativeOf t (t.getReg r) ∧ CommitsTo t (s.ip + 2) ∧ t.sp = s.sp ∧ Frame s t [r] [.zero, .negative] none ∧
      SameLines s t ∧ RetiresIn (addImmOf imm r) [fetched (addImmOf imm r) s, atOperand (addImmOf imm r) s]
        [.read s.ip, .read s.ip, .read (s.ip + 1)] s t) ∧
    (∃ t, exec (subImmOf imm r) s = .next t ∧
      (t.getReg r).toNat = ((s.getReg r).toNat + (2 ^ 32 - imm.toNat)) % 2 ^ 32 ∧
      ZeroNegativeOf t (t.getReg r) ∧ CommitsTo t (s.ip + 2) ∧ t.sp = s.sp ∧ Frame s t [r] [.zero, .negative] none ∧
      SameLines s t ∧ RetiresIn (subImmOf imm r) [fetched (subImmOf imm r) s, atOperand (subImmOf imm r) s]
        [.read s.ip, .read s.ip, .read (s.ip + 1)] s t)

/-- R221 to R223: `LOAD_ABS_r` loads the cell at the operand address, all ones if it is unmapped, and writes ZERO from the
value, no other flag. -/
def Obligations.LoadAbsoluteResults : Prop :=
  ∀ (r : Reg) (addr : Word), encode (loadAbsOf addr r) = [0x30 + regNumber r, addr] ∧
  ∀ s : State, ∃ t, exec (loadAbsOf addr r) s = .next t ∧ t.getReg r = s.memRead addr ∧
    (Params.maps s.params addr = false → t.getReg r = 0xFFFFFFFF) ∧ (t.flags.zero = true ↔ s.memRead addr = 0) ∧
    CommitsTo t (s.ip + 2) ∧ t.sp = s.sp ∧ Frame s t [r] [.zero] none ∧ SameLines s t ∧
    RetiresIn (loadAbsOf addr r)
        [fetched (loadAbsOf addr r) s, atOperand (loadAbsOf addr r) s, atCell (loadAbsOf addr r) addr s]
        [.read s.ip, .read s.ip, .read (s.ip + 1), .read addr] s t

/-- R224 to R229: `ADD_r_ABSOLUTE` and `SUB_r_ABSOLUTE` with the cell at the operand address. -/
def Obligations.ArithmeticAbsoluteResults : Prop :=
  ∀ (r : Reg) (addr : Word),
  encode (addAbsOf addr r) = [0x34 + regNumber r, addr] ∧ encode (subAbsOf addr r) = [0x38 + regNumber r, addr] ∧
  ∀ s : State,
    (∃ t, exec (addAbsOf addr r) s = .next t ∧
      (t.getReg r).toNat = ((s.getReg r).toNat + (s.memRead addr).toNat) % 2 ^ 32 ∧
      ZeroNegativeOf t (t.getReg r) ∧ CommitsTo t (s.ip + 2) ∧ t.sp = s.sp ∧ Frame s t [r] [.zero, .negative] none ∧
      SameLines s t ∧ RetiresIn (addAbsOf addr r)
        [fetched (addAbsOf addr r) s, atOperand (addAbsOf addr r) s, atCell (addAbsOf addr r) addr s]
        [.read s.ip, .read s.ip, .read (s.ip + 1), .read addr] s t) ∧
    (∃ t, exec (subAbsOf addr r) s = .next t ∧
      (t.getReg r).toNat = ((s.getReg r).toNat + (2 ^ 32 - (s.memRead addr).toNat)) % 2 ^ 32 ∧
      ZeroNegativeOf t (t.getReg r) ∧ CommitsTo t (s.ip + 2) ∧ t.sp = s.sp ∧ Frame s t [r] [.zero, .negative] none ∧
      SameLines s t ∧ RetiresIn (subAbsOf addr r)
        [fetched (subAbsOf addr r) s, atOperand (subAbsOf addr r) s, atCell (subAbsOf addr r) addr s]
        [.read s.ip, .read s.ip, .read (s.ip + 1), .read addr] s t)

/-- R241 to R243: `PUSH_r` stores the register in the cell at `SP` and moves `SP` down by one modulo 2^32; no other cell, no
register and no flag changes. That the stored cell reads as the value has the premise that the memory is in the model's
canonical form, `mem.wf` (log entry 2). -/
def Obligations.PushResults : Prop :=
  ∀ r : Reg, encode (pushOf r) = [0x40 + regNumber r] ∧
  ∀ s : State, ∃ t, exec (pushOf r) s = .next t ∧ Stored s t s.sp (s.getReg r) ∧
    t.sp.toNat = (s.sp.toNat + (2 ^ 32 - 1)) % 2 ^ 32 ∧ CommitsTo t (s.ip + 1) ∧ Frame s t [] [] (some s.sp) ∧
    t.busRw = .read ∧ t.busDataOut = 0 ∧ t.tmp1 = s.tmp1 ∧ t.tmp2 = s.tmp2 ∧
    RetiresIn (pushOf r) [fetched (pushOf r) s, requestsPush 2 (s.getReg r) (fetched (pushOf r) s)]
      [.read s.ip, .read s.ip, .write s.sp (s.getReg r)] s t

/-- R244 to R246: `POP_r` moves `SP` up by one modulo 2^32 and loads the register from the cell at the new `SP`; no flag and no
cell changes. -/
def Obligations.PopResults : Prop :=
  ∀ r : Reg, encode (popOf r) = [0x44 + regNumber r] ∧
  ∀ s : State, ∃ t, exec (popOf r) s = .next t ∧ t.sp.toNat = (s.sp.toNat + 1) % 2 ^ 32 ∧
    t.getReg r = s.memRead t.sp ∧ CommitsTo t (s.ip + 1) ∧ Frame s t [r] [] none ∧
    t.busRw = .read ∧ t.busDataOut = 0 ∧ t.tmp1 = s.tmp1 ∧ t.tmp2 = s.tmp2 ∧
    RetiresIn (popOf r) [fetched (popOf r) s, requestsPop 2 (fetched (popOf r) s)]
      [.read s.ip, .read s.ip, .read (s.sp + 1)] s t

/-- R247: `CALL` stores the address of the word after its operand in the cell at `SP`, moves `SP` down by one and continues
at the target. That the stored cell reads as the value has the premise that the memory is in the model's canonical form,
`mem.wf` (log entry 2). -/
def Obligations.CallResults : Prop :=
  ∀ target : Word, encode (.call target) = [0x48, target] ∧
  ∀ s : State, ∃ t, exec (.call target) s = .next t ∧ Stored s t s.sp (s.ip + 2) ∧ t.sp = s.sp - 1 ∧
    CommitsTo t target ∧ Frame s t [] [] (some s.sp) ∧ t.busRw = .read ∧ t.busDataOut = 0 ∧ t.tmp1 = 0 ∧
    t.tmp2 = s.tmp2 ∧
    RetiresIn (.call target)
      [fetched (.call target) s, atOperand (.call target) s,
        requestsPush 3 (s.ip + 2) { atOperand (.call target) s with tmp1 := target }]
      [.read s.ip, .read s.ip, .read (s.ip + 1), .write s.sp (s.ip + 2)] s t

/-- R248: `RETURN` moves `SP` up by one and continues at the address in the cell at the new `SP`, all ones if it is unmapped. -/
def Obligations.ReturnResults : Prop :=
  encode .ret = [0x49] ∧
  ∀ s : State, ∃ t, exec .ret s = .next t ∧ t.sp = s.sp + 1 ∧ CommitsTo t (s.memRead (s.sp + 1)) ∧
    (Params.maps s.params (s.sp + 1) = false → t.ip = 0xFFFFFFFF) ∧ Frame s t [] [] none ∧ t.busRw = .read ∧
    t.busDataOut = 0 ∧ t.tmp1 = s.tmp1 ∧ t.tmp2 = s.tmp2 ∧
    RetiresIn .ret [fetched .ret s, requestsPop 2 (fetched .ret s)] [.read s.ip, .read s.ip, .read (s.sp + 1)] s t

/-- R261: `JUMP` continues at the target and changes nothing else; at its own address it is the stop idiom. -/
def Obligations.JumpResults : Prop :=
  ∀ target : Word, encode (.jump target) = [0x50, target] ∧
  ∀ s : State, ∃ t, exec (.jump target) s = .next t ∧ CommitsTo t target ∧ t.sp = s.sp ∧ Frame s t [] [] none ∧
    SameLines s t ∧
    RetiresIn (.jump target) [fetched (.jump target) s, atOperand (.jump target) s]
      [.read s.ip, .read s.ip, .read (s.ip + 1)] s t

/-- R262 to R271: a conditional jump on a flag continues at the target, in three cycles, or past its operand word, in two
cycles that never read it; it changes nothing else. -/
def Obligations.ConditionalJumpResults : Prop :=
  ∀ (f : Flag) (target : Word),
  encode (jumpIfOf target f) = [0x51 + 2 * flagNumber f, target] ∧
  encode (jumpIfNotOf target f) = [0x52 + 2 * flagNumber f, target] ∧
  ∀ (s : State) (i : Instr) (wanted : Bool),
    (i = jumpIfOf target f ∧ wanted = true ∨ i = jumpIfNotOf target f ∧ wanted = false) →
    ∃ t, exec i s = .next t ∧ t.sp = s.sp ∧ Frame s t [] [] none ∧ SameLines s t ∧
      (s.flags.get f = wanted → CommitsTo t target ∧
        RetiresIn i [fetched i s, atOperand i s] [.read s.ip, .read s.ip, .read (s.ip + 1)] s t) ∧
      (s.flags.get f ≠ wanted → CommitsTo t (s.ip + 2) ∧
        RetiresIn i [fetched i s] [.read s.ip, .read s.ip] s t ∧
        (s.atBoundary = true → s.memRead s.ip = (encode i).headD 0 →
          ticks 2 s = .next { t with ir := s.memRead s.ip } ∧
          busTrace [Lines.quiet, Lines.quiet] s = [.read s.ip, .read s.ip]))

/-- R281: `MOVE` copies the value of its source, a register or a cell, to its destination, a register or a cell, and writes
nothing else: no flag, no other register, no other cell. From every state, but for one clause: that a destination cell reads
as the value has the premise that the memory is in the model's canonical form, `mem.wf` (log entry 2). -/
def Obligations.MoveResults : Prop :=
  ∀ src dst : MoveOperand, encode (.move src dst) = [0x60, src.toWord, dst.toWord] ∧
  ∀ (s : State) (v : Word),
    (∀ r, src = .reg r → v = s.getReg r) → (∀ a, src = .cell a → v = s.memRead a) →
    ∃ t, exec (.move src dst) s = .next t ∧ CommitsTo t (s.ip + 3) ∧ t.sp = s.sp ∧ t.tmp1 = 0 ∧ t.tmp2 = 0 ∧
      (∀ r, dst = .reg r → t.getReg r = v ∧ Frame s t [r] [] none ∧ t.busRw = s.busRw ∧ t.busDataOut = s.busDataOut ∧
        ((Instr.move src dst).wellFormed = true → RetiresIn (.move src dst)
          [fetched (.move src dst) s, atOperand (.move src dst) s, movesFrom (.move src dst) src s,
            movesTo (.move src dst) src v s]
          [.read s.ip, .read s.ip, .read (s.ip + 1), .read (sourceAddress src s), .read (s.ip + 2)] s t)) ∧
      (∀ a, dst = .cell a → Stored s t a v ∧ Frame s t [] [] (some a) ∧ t.busRw = .read ∧ t.busDataOut = 0 ∧
        ((Instr.move src dst).wellFormed = true → RetiresIn (.move src dst)
          [fetched (.move src dst) s, atOperand (.move src dst) s, movesFrom (.move src dst) src s,
            movesTo (.move src dst) src v s, movesOut (.move src dst) src v a s]
          [.read s.ip, .read s.ip, .read (s.ip + 1), .read (sourceAddress src s), .read (s.ip + 2), .write a v] s t))

/-! ## Who writes what, over all instructions -/

/-- R31: an instruction changes no flag but those the table of R31 says it writes; so no arithmetic touches CARRY, ERROR or
OVERFLOW, and no load touches NEGATIVE. -/
def Obligations.FlagsChangeOnlyWhereTheTableSays : Prop :=
  ∀ (i : Instr) (s : State), ∃ t, exec i s = .next t ∧ SameFlags s t (flagsWritten i)

/-- R31: a flag that an instruction does not read has no influence on it: with the flag changed beforehand, the outcome is the
same but for that flag, and is the same altogether where the instruction writes the flag. -/
def Obligations.FlagsMatterOnlyWhereTheTableSays : Prop :=
  ∀ (i : Instr) (f : Flag) (b : Bool) (s : State), f ∉ flagsRead i →
    (f ∈ flagsWritten i → exec i (s.putFlag f b) = exec i s) ∧
    (f ∉ flagsWritten i → exec i (s.putFlag f b) = mapNext (fun t => t.putFlag f b) (exec i s))

/-- R21, R25: an instruction changes no general register but the one its mnemonic names (or the destination of a `MOVE`), and
moves `SP` only as the Stack Unit does for the eight instructions of R25. -/
def Obligations.RegistersChangeOnlyWhereNamed : Prop :=
  ∀ (i : Instr) (s : State), ∃ t, exec i s = .next t ∧ SameRegs s t (regsWritten i) ∧ t.sp = nextSp i s

/-- R73: an instruction stores to no cell but the one at `SP` (`PUSH_r`, `CALL`) or the cell destination of a `MOVE`. -/
def Obligations.MemoryChangesOnlyAtTheStoreAddress : Prop :=
  ∀ (i : Instr) (s : State), ∃ t, exec i s = .next t ∧ SameMemory s t (storeAddress i s)

/-- R24: every instruction commits to its target, if it transfers control, and else to the word after its last word. -/
def Obligations.ControlGoesToTargetOrNextWord : Prop :=
  ∀ (i : Instr) (s : State), ∃ t, exec i s = .next t ∧
    CommitsTo t ((transferTarget i s).getD (s.ip + BitVec.ofNat 32 (encode i).length))

/-- R28: no instruction reads or writes `QP`: with another value there the outcome is the same, and `QP` keeps that value; from
its reset value 0 it stays 0 at every step. -/
def Obligations.NoInstructionReadsOrWritesQp : Prop :=
  (∀ (i : Instr) (q : Word) (s : State), exec i (withQp q s) = mapNext (withQp q) (exec i s)) ∧
  (∀ (i : Instr) (s t : State), exec i s = .next t → t.qp = s.qp) ∧
  (∀ s t : State, s.qp = 0 → step s = .next t → t.qp = 0)

/-- R6, R7: no step changes the parameters of the instantiation. That they stand in the state is the model's form (log entry
1). -/
def Obligations.NoStepChangesTheParameters : Prop := ∀ s t : State, step s = .next t → t.params = s.params

/-- R45: at a boundary the Level A state decides the Level A state after the instruction. R45 is the spec's own derivation,
"[derived: from rule R44]"; the scheduled lines are the model's own field (log entry 4). -/
def Obligations.LevelAStateDecidesTheOutcome : Prop :=
  ∀ s s' : State, s.atBoundary = true → s'.atBoundary = true → s.lines = [] → s'.lines = [] →
    s.params = s'.params → s.arch = s'.arch → ∃ t t', step s = .next t ∧ step s' = .next t' ∧ t.arch = t'.arch

/-! ## ALU, views, ports -/

/-- R140: the ALU's result is the exact sum or difference modulo 2^32 and the flag updates are ZERO and NEGATIVE of it; an
undefined operation has the result 0 and clears all flags but ERROR. -/
def Obligations.AluComputesResultAndFlags : Prop :=
  ∀ a b : Word,
    (alu .add a b).result.toNat = (a.toNat + b.toNat) % 2 ^ 32 ∧
    (alu .sub a b).result.toNat = (a.toNat + (2 ^ 32 - b.toNat)) % 2 ^ 32 ∧
    (alu .inc a b).result.toNat = (a.toNat + 1) % 2 ^ 32 ∧
    (alu .dec a b).result.toNat = (a.toNat + (2 ^ 32 - 1)) % 2 ^ 32 ∧
    (∀ op, op ≠ .other → (alu op a b).update =
      .zeroNegative (decide ((alu op a b).result = 0)) (decide ((alu op a b).result.toInt < 0))) ∧
    (alu .other a b).result = 0 ∧
    ∀ f : Flags, f.apply (alu .other a b).update = ⟨false, false, false, true, false⟩

/-- R142: an undefined ALU operation leaves the destination register as it was and every other state but the flags, of which
ERROR alone is then set. -/
def Obligations.UndefinedAluOperationOnlySetsError : Prop :=
  ∀ (s : State) (r : Reg) (v : Word),
    s.aluReg .other r v = { s with flags := ⟨false, false, false, true, false⟩ }

/-- R22: writing a view of a register writes the bits of the view and leaves its other bits unchanged; on the state it is a
write of that register and of nothing else; the views are at the places the rule names. -/
def Obligations.ViewsWriteTheirBitsOnly : Prop :=
  (∀ (v : SubRange) (w : Word) (bits : BitVec v.width), v.read (v.write w bits) = bits) ∧
  (∀ (v : SubRange) (w : Word) (bits : BitVec v.width) (j : Nat), j < v.low ∨ v.low + v.width ≤ j →
    (v.write w bits).getLsbD j = w.getLsbD j) ∧
  (∀ (s : State) (r : Reg) (v : SubRange) (bits : BitVec v.width),
    (s.writeView r v bits).readView r v = bits ∧ SameRegs s (s.writeView r v bits) [r] ∧
    (s.writeView r v bits).mem = s.mem ∧ ∃ w, s.writeView r v bits = s.setReg r w) ∧
  (∀ w : Word,
    SubRange.lo16.read w = w.extractLsb 15 0 ∧ SubRange.hi16.read w = w.extractLsb 31 16 ∧
    SubRange.b0.read w = w.extractLsb 7 0 ∧ SubRange.b1.read w = w.extractLsb 15 8 ∧
    SubRange.b2.read w = w.extractLsb 23 16 ∧ SubRange.b3.read w = w.extractLsb 31 24)

/-- R30, R312: the diagnostic port shows `IP`, `IR`, the general registers, `instr_state` and the flags at bits 0 to 4 in the
order of listing; in a wider container the bits from 5 up are 0. -/
def Obligations.DiagnosticPortShowsTheRegisters : Prop :=
  ∀ s : State,
    s.diagPort.ip = s.ip ∧ s.diagPort.ir = s.ir ∧ s.diagPort.ra = s.ra ∧ s.diagPort.rb = s.rb ∧ s.diagPort.rx = s.rx ∧
    s.diagPort.instrState = s.instrState ∧
    (∀ f : Flag, s.diagPort.flags.getLsbD (flagNumber f).toNat = s.flags.get f) ∧
    ∀ n j : Nat, 5 ≤ j → (s.diagPort.flagsIn n).getLsbD j = false

/-! ## Memory -/

/-- R65, R66: a read of a mapped address gives the content of its cell, of an unmapped one all ones; after a write, a mapped
cell reads as the value and every other cell as before, and a write to an unmapped address has no effect at all; a write
changes nothing but the memory, so it sets no flag. That the written cell reads as the value has the premise that the memory
is in the model's canonical form (log entry 2). -/
def Obligations.ReadAfterWrite : Prop :=
  ∀ (s : State) (a b v : Word),
    (Params.maps s.params a = true → s.memRead a = s.mem.readCell a) ∧
    (Params.maps s.params a = true → s.mem.wf = true → (s.memWrite a v).memRead a = v) ∧
    (b ≠ a → (s.memWrite a v).memRead b = s.memRead b) ∧
    (Params.maps s.params a = false → s.memWrite a v = s ∧ s.memRead a = 0xFFFFFFFF) ∧
    ∃ m, s.memWrite a v = { s with mem := m }

/-- Log entry 2, the model's own form of the memory: two memories in canonical form whose cells all read the same are equal. -/
def Obligations.CanonicalMemoriesWithEqualCellsAreEqual : Prop :=
  ∀ m n : Memory, m.wf = true → n.wf = true → (∀ a, m.readCell a = n.readCell a) → m = n

/-- The model's own invariant of log entry 2: every step keeps the memory in its canonical form. -/
def Obligations.EveryStepKeepsMemoryCanonical : Prop :=
  ∀ s t : State, s.mem.wf = true → step s = .next t → t.mem.wf = true

/-- R78: a store is seen by the next fetch: a `PUSH_r` to the cell after it makes the pushed word the next opcode word, and
a `MOVE` to the cell after its last word does the same. R78 is the spec's own derivation, "[derived: from rule R62 and rule
R76]". The premise that the memory is in canonical form is of the model's own form (log entry 2). -/
def Obligations.StoreIsSeenByTheNextFetch : Prop :=
  ∀ (s : State) (r : Reg), s.mem.wf = true →
    (s.sp = s.ip + 1 → Params.maps s.params s.sp = true →
      ∃ t, exec (pushOf r) s = .next t ∧ t.memRead t.ip = s.getReg r) ∧
    (Params.maps s.params (s.ip + 3) = true →
      ∃ t, exec (.move (.reg r) (.cell (s.ip + 3))) s = .next t ∧ t.memRead t.ip = s.getReg r)

/-- R67: a `PUSH_r` and then a `POP_q` restore `SP` and give the pushed value, at the ends of the address space too. The
premise that the memory is in canonical form is of the model's own form (log entry 2). -/
def Obligations.StackRoundTrip : Prop :=
  ∀ (s : State) (r q : Reg), s.mem.wf = true → Params.maps s.params s.sp = true →
    ∃ t u, exec (pushOf r) s = .next t ∧ exec (popOf q) t = .next u ∧ u.sp = s.sp ∧ u.getReg q = s.getReg r

/-- R247, R248: a `RETURN` right after a `CALL` continues at the word after the operand of the `CALL`, with `SP` restored.
The premise that the memory is in canonical form is of the model's own form (log entry 2). -/
def Obligations.ReturnUndoesCall : Prop :=
  ∀ (s : State) (target : Word), s.mem.wf = true → Params.maps s.params s.sp = true →
    ∃ t u, exec (.call target) s = .next t ∧ exec .ret t = .next u ∧ u.ip = s.ip + 2 ∧ u.sp = s.sp ∧
      SameRegs s u [] ∧ SameFlags s u []

/-! ## The cycle level -/

/-- R139, R75: from a boundary, under every schedule of wait states that leaves as many un-stalled ticks as the instruction
has cycles, the ticks give exactly the state that one step of the whole instruction gives, and that state is a boundary: the
next cycle is the fetch cycle of the next instruction. R139 is the spec's own derivation, "[derived: from rules R131 to
R136]"; the scheduled lines are the model's own field (log entry 4). -/
def Obligations.StepIsTheCompositionOfItsTicks : Prop :=
  ∀ (s : State) (ls : List Lines), s.lines = [] → s.atBoundary = true → (∀ l ∈ ls, l.rst = false) →
    unstalled ls = instrCycles s.fetchInstr s → ∃ t, tickLines ls s = .next t ∧ step s = .next t ∧ t.atBoundary = true

/-- R137, R36: end-of-instruction is asserted on exactly one cycle, the last, and carries the address that is `IP` and the
bus address after it, with `instr_state` 0; before it, `instr_state` counts the cycles. The pulse is that of an un-stalled
cycle; wait states and resets are in `EndOfInstructionIsOnePulse`. -/
def Obligations.OneCommitPerInstruction : Prop :=
  ∀ (s : State) (n : Nat), s.atBoundary = true → n < instrCycles s.fetchInstr s →
    ∃ t, ticks n s = .next t ∧ t.instrState = BitVec.ofNat 3 n ∧
      (n + 1 < instrCycles s.fetchInstr s → t.endInstr Lines.quiet = none) ∧
      (n + 1 = instrCycles s.fetchInstr s → ∃ u, ticks (n + 1) s = .next u ∧ t.endInstr Lines.quiet = some u.ip ∧
        u.busAddr = u.ip ∧ u.instrState = 0 ∧ u.atBoundary = true)

/-- R72, R346: the transactions that retire while an instruction runs are those of its table, in that order, one a cycle. -/
def Obligations.BusTraceIsTheStream : Prop :=
  ∀ s : State, s.atBoundary = true →
    busTrace (List.replicate (instrCycles s.fetchInstr s) Lines.quiet) s = instrStream s.fetchInstr s ∧
    (instrStream s.fetchInstr s).length = instrCycles s.fetchInstr s

/-- R44, R137: the invariant of the cycle level is kept, and with it no step stops: the boundary invariant holds at every
fetch cycle, every execute cycle has its row, and the machine never faults. R44 is the spec's own derivation, "[derived:
from rule R42 and the cycle tables]". -/
def Obligations.EveryStepCompletesAndKeepsProtocol : Prop :=
  ∀ s : State, s.protocolInv = true → ∃ t, step s = .next t ∧ t.protocolInv = true

/-- The reset state has the invariants: the protocol invariant, the canonical memory, `QP` 0. Three things it says are the
model's choice: that memory lists nothing (log entry 3), what the parameters are (log entry 1), and that it is the state of
the middle column of R42, with the reset sequence about to begin and `reset_state` 0, and not that of the right-hand column
(log entry 13). -/
def Obligations.ResetStateHasTheInvariants : Prop :=
  State.reset.protocolInv = true ∧ State.reset.mem.wf = true ∧ State.reset.qp = 0 ∧
    State.reset.sp = State.reset.params.spInit ∧ State.reset.resetState = .rs0

/-- R345: whatever cycle the machine is in after the reset sequence, it reaches a boundary within 6 un-stalled ticks. R345
is the spec's own derivation, "[derived: from the cycle tables]". -/
def Obligations.EveryInstructionRetiresWithinSixCycles : Prop :=
  ∀ s : State, s.protocolInv = true → s.resetState = .run →
    ∃ n t, 1 ≤ n ∧ n ≤ 6 ∧ ticks n s = .next t ∧ t.atBoundary = true

/-- R146: no protocol makes a second stack request before the first is accepted: the row after a request is a commit without a
request, and the requesting row itself does not commit. -/
def Obligations.NoStackRequestBeforeTheLastIsAccepted : Prop :=
  ∀ (i : Instr) (k : Nat) (s : State) (d : Word) (row : CycleRow), cycleTable i k s d = some row → row.stack ≠ none →
    row.commit = none ∧
    ∀ (s' : State) (d' : Word), ∃ row', cycleTable i (k + 1) s' d' = some row' ∧ row'.stack = none ∧ row'.commit ≠ none

/-- R132: the fetch cycle latches the word at `IP` into `IR`, sets `instr_state` to 1 and changes nothing else; with a wait state
it changes nothing at all. -/
def Obligations.FetchCycleLatchesTheOpcode : Prop :=
  ∀ s : State, s.atBoundary = true →
    tick ⟨false, false⟩ s = .next { s with ir := s.memRead s.ip, instrState := 1 } ∧ tick ⟨false, true⟩ s = .next s

/-! ## Stall, reset and the end of a run -/

/-- R70: while `stall` is asserted and `rst` is not, nothing changes, for any number of ticks, in any state. -/
def Obligations.StallHoldsEverything : Prop :=
  ∀ (s : State) (n : Nat), tickLines (List.replicate n ⟨false, true⟩) s = .next s

/-- R336, R337: a tick with `rst` asserted gives every register its reset value, whatever `stall` is and whatever was under way;
it does not touch the memory, and a write that is presented when `rst` is sampled is not performed. -/
def Obligations.ResetTickResetsEveryRegister : Prop :=
  ∀ (s : State) (stall : Bool), s.retiring ⟨true, stall⟩ = none ∧ ∃ t, tick ⟨true, stall⟩ s = .next t ∧
    t.ra = 0 ∧ t.rb = 0 ∧ t.rx = 0 ∧ t.qp = 0 ∧ t.ir = 0 ∧ t.ip = 0 ∧ t.sp = s.params.spInit ∧
    (∀ f, t.flags.get f = false) ∧ t.tmp1 = 0 ∧ t.tmp2 = 0 ∧ t.tmp3 = 0 ∧ t.resetState = .rs0 ∧ t.instrState = 0 ∧
    t.busAddr = 0 ∧ t.busDataOut = 0 ∧ t.busRw = .read ∧ t.mem = s.mem

/-- R331, R333: from any state, a reset tick and then two un-stalled ticks, with any number of wait states before each, lead to
the boundary at the resolved start address, with every register as the right-hand column of R42 says. -/
def Obligations.ResetSequenceReachesTheStartAddress : Prop :=
  ∀ (s : State) (stall : Bool) (m n : Nat), ∃ t,
    tickLines (⟨true, stall⟩ :: (List.replicate m ⟨false, true⟩ ++ ⟨false, false⟩ ::
      (List.replicate n ⟨false, true⟩ ++ [⟨false, false⟩]))) s = .next t ∧
    t.atBoundary = true ∧
    t.ip = (if s.params.vectored then s.memRead s.params.bootAddr else s.params.bootAddr) ∧
    t.ra = 0 ∧ t.rb = 0 ∧ t.rx = 0 ∧ t.qp = 0 ∧ t.ir = 0 ∧ t.sp = s.params.spInit ∧
    (∀ f, t.flags.get f = false) ∧ t.mem = s.mem

/-- R38, log entry 4: steps with scheduled lines are ticks with those lines, one step a tick. The field is the model's own.
-/
def Obligations.ScheduledLinesAreTakenOneByOne : Prop :=
  ∀ (ls : List Lines) (s t : State), s.lines = [] → tickLines ls s = .next t →
    Host.Core.run Sys2Proof.core ls.length { s with lines := ls } = .next t

/-- R341: once a program has ended, it stays ended, and the Level A state and the memory never change. The scheduled lines
are the model's own field (log entry 4). That the cells of the jump are read through the port, so that an unmapped one may
count, is the model's choice (log entry 20). -/
def Obligations.EndedProgramStaysEnded : Prop :=
  ∀ (s : State) (e : Word) (n : Nat), s.lines = [] → s.ended e →
    ∃ t, Host.Core.run Sys2Proof.core n s = .next t ∧ t.ended e ∧ t.arch = s.arch

/-- R36, R137, R336: end-of-instruction is one pulse. Raised at a tick, that tick is neither a wait state nor a reset and commits
to the payload; under every schedule of wait states an instruction raises it exactly once, with the address the instruction
ends at; and an instruction that a reset abandons never raises it. R36 rests on the spec's decision D25. -/
def Obligations.EndOfInstructionIsOnePulse : Prop :=
  (∀ (s t : State) (l : Lines) (a : Word), tick l s = .next t → s.endInstr l = some a →
    l = Lines.quiet ∧ s.resetState = .run ∧ CommitsTo t a) ∧
  (∀ (s : State) (ls : List Lines), s.atBoundary = true → (∀ l ∈ ls, l.rst = false) →
    unstalled ls = instrCycles s.fetchInstr s →
    ∃ t, tickLines ls s = .next t ∧ t.atBoundary = true ∧ endTrace ls s = [t.ip]) ∧
  (∀ (s : State) (ls : List Lines) (stall : Bool), s.atBoundary = true → (∀ l ∈ ls, l.rst = false) →
    unstalled ls < instrCycles s.fetchInstr s →
    ∃ t, tickLines (ls ++ [⟨true, stall⟩]) s = .next t ∧ t.resetState = .rs0 ∧ endTrace (ls ++ [⟨true, stall⟩]) s = [])
end

