-- ==== Sys2Proof/Laws/State.lean ====
section
/-! SUPPORT. One lemma per field per update of the state, so that no later proof unfolds a record update. -/

namespace Sys2Proof.Machine

variable (s : State)

/-! ### `commit` -/

@[simp] theorem State.commit_ra (t : Word) : (s.commit t).ra = s.ra := rfl
@[simp] theorem State.commit_rb (t : Word) : (s.commit t).rb = s.rb := rfl
@[simp] theorem State.commit_rx (t : Word) : (s.commit t).rx = s.rx := rfl
@[simp] theorem State.commit_ip (t : Word) : (s.commit t).ip = t := rfl
@[simp] theorem State.commit_sp (t : Word) : (s.commit t).sp = s.sp := rfl
@[simp] theorem State.commit_qp (t : Word) : (s.commit t).qp = s.qp := rfl
@[simp] theorem State.commit_ir (t : Word) : (s.commit t).ir = s.ir := rfl
@[simp] theorem State.commit_flags (t : Word) : (s.commit t).flags = s.flags := rfl
@[simp] theorem State.commit_tmp1 (t : Word) : (s.commit t).tmp1 = s.tmp1 := rfl
@[simp] theorem State.commit_tmp2 (t : Word) : (s.commit t).tmp2 = s.tmp2 := rfl
@[simp] theorem State.commit_tmp3 (t : Word) : (s.commit t).tmp3 = s.tmp3 := rfl
@[simp] theorem State.commit_resetState (t : Word) : (s.commit t).resetState = s.resetState := rfl
@[simp] theorem State.commit_instrState (t : Word) : (s.commit t).instrState = 0 := rfl
@[simp] theorem State.commit_busAddr (t : Word) : (s.commit t).busAddr = t := rfl
@[simp] theorem State.commit_busDataOut (t : Word) : (s.commit t).busDataOut = s.busDataOut := rfl
@[simp] theorem State.commit_busRw (t : Word) : (s.commit t).busRw = s.busRw := rfl
@[simp] theorem State.commit_mem (t : Word) : (s.commit t).mem = s.mem := rfl
@[simp] theorem State.commit_params (t : Word) : (s.commit t).params = s.params := rfl
@[simp] theorem State.commit_lines (t : Word) : (s.commit t).lines = s.lines := rfl

/-! ### `settle` -/

@[simp] theorem State.settle_ra : (s.settle).ra = s.ra := rfl
@[simp] theorem State.settle_rb : (s.settle).rb = s.rb := rfl
@[simp] theorem State.settle_rx : (s.settle).rx = s.rx := rfl
@[simp] theorem State.settle_ip : (s.settle).ip = s.ip := rfl
@[simp] theorem State.settle_sp : (s.settle).sp = s.sp := rfl
@[simp] theorem State.settle_qp : (s.settle).qp = s.qp := rfl
@[simp] theorem State.settle_ir : (s.settle).ir = s.ir := rfl
@[simp] theorem State.settle_flags : (s.settle).flags = s.flags := rfl
@[simp] theorem State.settle_tmp1 : (s.settle).tmp1 = s.tmp1 := rfl
@[simp] theorem State.settle_tmp2 : (s.settle).tmp2 = s.tmp2 := rfl
@[simp] theorem State.settle_tmp3 : (s.settle).tmp3 = s.tmp3 := rfl
@[simp] theorem State.settle_resetState : (s.settle).resetState = s.resetState := rfl
@[simp] theorem State.settle_instrState : (s.settle).instrState = s.instrState := rfl
@[simp] theorem State.settle_busAddr : (s.settle).busAddr = s.busAddr := rfl
@[simp] theorem State.settle_busDataOut : (s.settle).busDataOut = 0 := rfl
@[simp] theorem State.settle_busRw : (s.settle).busRw = .read := rfl
@[simp] theorem State.settle_mem : (s.settle).mem = s.mem := rfl
@[simp] theorem State.settle_params : (s.settle).params = s.params := rfl
@[simp] theorem State.settle_lines : (s.settle).lines = s.lines := rfl

/-! ### `clearScratch` -/

@[simp] theorem State.clearScratch_ra : (s.clearScratch).ra = s.ra := rfl
@[simp] theorem State.clearScratch_rb : (s.clearScratch).rb = s.rb := rfl
@[simp] theorem State.clearScratch_rx : (s.clearScratch).rx = s.rx := rfl
@[simp] theorem State.clearScratch_ip : (s.clearScratch).ip = s.ip := rfl
@[simp] theorem State.clearScratch_sp : (s.clearScratch).sp = s.sp := rfl
@[simp] theorem State.clearScratch_qp : (s.clearScratch).qp = s.qp := rfl
@[simp] theorem State.clearScratch_ir : (s.clearScratch).ir = s.ir := rfl
@[simp] theorem State.clearScratch_flags : (s.clearScratch).flags = s.flags := rfl
@[simp] theorem State.clearScratch_tmp1 : (s.clearScratch).tmp1 = 0 := rfl
@[simp] theorem State.clearScratch_tmp2 : (s.clearScratch).tmp2 = 0 := rfl
@[simp] theorem State.clearScratch_tmp3 : (s.clearScratch).tmp3 = s.tmp3 := rfl
@[simp] theorem State.clearScratch_resetState : (s.clearScratch).resetState = s.resetState := rfl
@[simp] theorem State.clearScratch_instrState : (s.clearScratch).instrState = s.instrState := rfl
@[simp] theorem State.clearScratch_busAddr : (s.clearScratch).busAddr = s.busAddr := rfl
@[simp] theorem State.clearScratch_busDataOut : (s.clearScratch).busDataOut = s.busDataOut := rfl
@[simp] theorem State.clearScratch_busRw : (s.clearScratch).busRw = s.busRw := rfl
@[simp] theorem State.clearScratch_mem : (s.clearScratch).mem = s.mem := rfl
@[simp] theorem State.clearScratch_params : (s.clearScratch).params = s.params := rfl
@[simp] theorem State.clearScratch_lines : (s.clearScratch).lines = s.lines := rfl

/-! ### `clearTmp1` -/

@[simp] theorem State.clearTmp1_ra : (s.clearTmp1).ra = s.ra := rfl
@[simp] theorem State.clearTmp1_rb : (s.clearTmp1).rb = s.rb := rfl
@[simp] theorem State.clearTmp1_rx : (s.clearTmp1).rx = s.rx := rfl
@[simp] theorem State.clearTmp1_ip : (s.clearTmp1).ip = s.ip := rfl
@[simp] theorem State.clearTmp1_sp : (s.clearTmp1).sp = s.sp := rfl
@[simp] theorem State.clearTmp1_qp : (s.clearTmp1).qp = s.qp := rfl
@[simp] theorem State.clearTmp1_ir : (s.clearTmp1).ir = s.ir := rfl
@[simp] theorem State.clearTmp1_flags : (s.clearTmp1).flags = s.flags := rfl
@[simp] theorem State.clearTmp1_tmp1 : (s.clearTmp1).tmp1 = 0 := rfl
@[simp] theorem State.clearTmp1_tmp2 : (s.clearTmp1).tmp2 = s.tmp2 := rfl
@[simp] theorem State.clearTmp1_tmp3 : (s.clearTmp1).tmp3 = s.tmp3 := rfl
@[simp] theorem State.clearTmp1_resetState : (s.clearTmp1).resetState = s.resetState := rfl
@[simp] theorem State.clearTmp1_instrState : (s.clearTmp1).instrState = s.instrState := rfl
@[simp] theorem State.clearTmp1_busAddr : (s.clearTmp1).busAddr = s.busAddr := rfl
@[simp] theorem State.clearTmp1_busDataOut : (s.clearTmp1).busDataOut = s.busDataOut := rfl
@[simp] theorem State.clearTmp1_busRw : (s.clearTmp1).busRw = s.busRw := rfl
@[simp] theorem State.clearTmp1_mem : (s.clearTmp1).mem = s.mem := rfl
@[simp] theorem State.clearTmp1_params : (s.clearTmp1).params = s.params := rfl
@[simp] theorem State.clearTmp1_lines : (s.clearTmp1).lines = s.lines := rfl

/-! ### `latch` -/

@[simp] theorem State.latch_ra : (s.latch).ra = s.ra := rfl
@[simp] theorem State.latch_rb : (s.latch).rb = s.rb := rfl
@[simp] theorem State.latch_rx : (s.latch).rx = s.rx := rfl
@[simp] theorem State.latch_ip : (s.latch).ip = s.ip := rfl
@[simp] theorem State.latch_sp : (s.latch).sp = s.sp := rfl
@[simp] theorem State.latch_qp : (s.latch).qp = s.qp := rfl
@[simp] theorem State.latch_ir : (s.latch).ir = s.memRead s.ip := rfl
@[simp] theorem State.latch_flags : (s.latch).flags = s.flags := rfl
@[simp] theorem State.latch_tmp1 : (s.latch).tmp1 = s.tmp1 := rfl
@[simp] theorem State.latch_tmp2 : (s.latch).tmp2 = s.tmp2 := rfl
@[simp] theorem State.latch_tmp3 : (s.latch).tmp3 = s.tmp3 := rfl
@[simp] theorem State.latch_resetState : (s.latch).resetState = s.resetState := rfl
@[simp] theorem State.latch_instrState : (s.latch).instrState = s.instrState := rfl
@[simp] theorem State.latch_busAddr : (s.latch).busAddr = s.busAddr := rfl
@[simp] theorem State.latch_busDataOut : (s.latch).busDataOut = s.busDataOut := rfl
@[simp] theorem State.latch_busRw : (s.latch).busRw = s.busRw := rfl
@[simp] theorem State.latch_mem : (s.latch).mem = s.mem := rfl
@[simp] theorem State.latch_params : (s.latch).params = s.params := rfl
@[simp] theorem State.latch_lines : (s.latch).lines = s.lines := rfl

/-! ### `pop` -/

@[simp] theorem State.pop_ra : (s.pop).ra = s.ra := rfl
@[simp] theorem State.pop_rb : (s.pop).rb = s.rb := rfl
@[simp] theorem State.pop_rx : (s.pop).rx = s.rx := rfl
@[simp] theorem State.pop_ip : (s.pop).ip = s.ip := rfl
@[simp] theorem State.pop_sp : (s.pop).sp = s.sp + 1 := rfl
@[simp] theorem State.pop_qp : (s.pop).qp = s.qp := rfl
@[simp] theorem State.pop_ir : (s.pop).ir = s.ir := rfl
@[simp] theorem State.pop_flags : (s.pop).flags = s.flags := rfl
@[simp] theorem State.pop_tmp1 : (s.pop).tmp1 = s.tmp1 := rfl
@[simp] theorem State.pop_tmp2 : (s.pop).tmp2 = s.tmp2 := rfl
@[simp] theorem State.pop_tmp3 : (s.pop).tmp3 = s.tmp3 := rfl
@[simp] theorem State.pop_resetState : (s.pop).resetState = s.resetState := rfl
@[simp] theorem State.pop_instrState : (s.pop).instrState = s.instrState := rfl
@[simp] theorem State.pop_busAddr : (s.pop).busAddr = s.busAddr := rfl
@[simp] theorem State.pop_busDataOut : (s.pop).busDataOut = s.busDataOut := rfl
@[simp] theorem State.pop_busRw : (s.pop).busRw = s.busRw := rfl
@[simp] theorem State.pop_mem : (s.pop).mem = s.mem := rfl
@[simp] theorem State.pop_params : (s.pop).params = s.params := rfl
@[simp] theorem State.pop_lines : (s.pop).lines = s.lines := rfl

/-! ### `putFlag` -/

@[simp] theorem State.putFlag_ra (f : Flag) (b : Bool) : (s.putFlag f b).ra = s.ra := rfl
@[simp] theorem State.putFlag_rb (f : Flag) (b : Bool) : (s.putFlag f b).rb = s.rb := rfl
@[simp] theorem State.putFlag_rx (f : Flag) (b : Bool) : (s.putFlag f b).rx = s.rx := rfl
@[simp] theorem State.putFlag_ip (f : Flag) (b : Bool) : (s.putFlag f b).ip = s.ip := rfl
@[simp] theorem State.putFlag_sp (f : Flag) (b : Bool) : (s.putFlag f b).sp = s.sp := rfl
@[simp] theorem State.putFlag_qp (f : Flag) (b : Bool) : (s.putFlag f b).qp = s.qp := rfl
@[simp] theorem State.putFlag_ir (f : Flag) (b : Bool) : (s.putFlag f b).ir = s.ir := rfl
@[simp] theorem State.putFlag_flags (f : Flag) (b : Bool) : (s.putFlag f b).flags = s.flags.put f b := rfl
@[simp] theorem State.putFlag_tmp1 (f : Flag) (b : Bool) : (s.putFlag f b).tmp1 = s.tmp1 := rfl
@[simp] theorem State.putFlag_tmp2 (f : Flag) (b : Bool) : (s.putFlag f b).tmp2 = s.tmp2 := rfl
@[simp] theorem State.putFlag_tmp3 (f : Flag) (b : Bool) : (s.putFlag f b).tmp3 = s.tmp3 := rfl
@[simp] theorem State.putFlag_resetState (f : Flag) (b : Bool) : (s.putFlag f b).resetState = s.resetState := rfl
@[simp] theorem State.putFlag_instrState (f : Flag) (b : Bool) : (s.putFlag f b).instrState = s.instrState := rfl
@[simp] theorem State.putFlag_busAddr (f : Flag) (b : Bool) : (s.putFlag f b).busAddr = s.busAddr := rfl
@[simp] theorem State.putFlag_busDataOut (f : Flag) (b : Bool) : (s.putFlag f b).busDataOut = s.busDataOut := rfl
@[simp] theorem State.putFlag_busRw (f : Flag) (b : Bool) : (s.putFlag f b).busRw = s.busRw := rfl
@[simp] theorem State.putFlag_mem (f : Flag) (b : Bool) : (s.putFlag f b).mem = s.mem := rfl
@[simp] theorem State.putFlag_params (f : Flag) (b : Bool) : (s.putFlag f b).params = s.params := rfl
@[simp] theorem State.putFlag_lines (f : Flag) (b : Bool) : (s.putFlag f b).lines = s.lines := rfl

/-! ### `setReg` -/

@[simp] theorem State.setReg_ip (r : Reg) (v : Word) : (s.setReg r v).ip = s.ip := by cases r <;> rfl
@[simp] theorem State.setReg_sp (r : Reg) (v : Word) : (s.setReg r v).sp = s.sp := by cases r <;> rfl
@[simp] theorem State.setReg_qp (r : Reg) (v : Word) : (s.setReg r v).qp = s.qp := by cases r <;> rfl
@[simp] theorem State.setReg_ir (r : Reg) (v : Word) : (s.setReg r v).ir = s.ir := by cases r <;> rfl
@[simp] theorem State.setReg_flags (r : Reg) (v : Word) : (s.setReg r v).flags = s.flags := by cases r <;> rfl
@[simp] theorem State.setReg_tmp1 (r : Reg) (v : Word) : (s.setReg r v).tmp1 = s.tmp1 := by cases r <;> rfl
@[simp] theorem State.setReg_tmp2 (r : Reg) (v : Word) : (s.setReg r v).tmp2 = s.tmp2 := by cases r <;> rfl
@[simp] theorem State.setReg_tmp3 (r : Reg) (v : Word) : (s.setReg r v).tmp3 = s.tmp3 := by cases r <;> rfl
@[simp] theorem State.setReg_resetState (r : Reg) (v : Word) : (s.setReg r v).resetState = s.resetState := by cases r <;> rfl
@[simp] theorem State.setReg_instrState (r : Reg) (v : Word) : (s.setReg r v).instrState = s.instrState := by cases r <;> rfl
@[simp] theorem State.setReg_busAddr (r : Reg) (v : Word) : (s.setReg r v).busAddr = s.busAddr := by cases r <;> rfl
@[simp] theorem State.setReg_busDataOut (r : Reg) (v : Word) : (s.setReg r v).busDataOut = s.busDataOut := by cases r <;> rfl
@[simp] theorem State.setReg_busRw (r : Reg) (v : Word) : (s.setReg r v).busRw = s.busRw := by cases r <;> rfl
@[simp] theorem State.setReg_mem (r : Reg) (v : Word) : (s.setReg r v).mem = s.mem := by cases r <;> rfl
@[simp] theorem State.setReg_params (r : Reg) (v : Word) : (s.setReg r v).params = s.params := by cases r <;> rfl
@[simp] theorem State.setReg_lines (r : Reg) (v : Word) : (s.setReg r v).lines = s.lines := by cases r <;> rfl

/-! ### `memWrite` -/

@[simp] theorem State.memWrite_ra (a v : Word) : (s.memWrite a v).ra = s.ra := by unfold State.memWrite; split <;> rfl
@[simp] theorem State.memWrite_rb (a v : Word) : (s.memWrite a v).rb = s.rb := by unfold State.memWrite; split <;> rfl
@[simp] theorem State.memWrite_rx (a v : Word) : (s.memWrite a v).rx = s.rx := by unfold State.memWrite; split <;> rfl
@[simp] theorem State.memWrite_ip (a v : Word) : (s.memWrite a v).ip = s.ip := by unfold State.memWrite; split <;> rfl
@[simp] theorem State.memWrite_sp (a v : Word) : (s.memWrite a v).sp = s.sp := by unfold State.memWrite; split <;> rfl
@[simp] theorem State.memWrite_qp (a v : Word) : (s.memWrite a v).qp = s.qp := by unfold State.memWrite; split <;> rfl
@[simp] theorem State.memWrite_ir (a v : Word) : (s.memWrite a v).ir = s.ir := by unfold State.memWrite; split <;> rfl
@[simp] theorem State.memWrite_flags (a v : Word) : (s.memWrite a v).flags = s.flags := by unfold State.memWrite; split <;> rfl
@[simp] theorem State.memWrite_tmp1 (a v : Word) : (s.memWrite a v).tmp1 = s.tmp1 := by unfold State.memWrite; split <;> rfl
@[simp] theorem State.memWrite_tmp2 (a v : Word) : (s.memWrite a v).tmp2 = s.tmp2 := by unfold State.memWrite; split <;> rfl
@[simp] theorem State.memWrite_tmp3 (a v : Word) : (s.memWrite a v).tmp3 = s.tmp3 := by unfold State.memWrite; split <;> rfl
@[simp] theorem State.memWrite_resetState (a v : Word) : (s.memWrite a v).resetState = s.resetState := by unfold State.memWrite; split <;> rfl
@[simp] theorem State.memWrite_instrState (a v : Word) : (s.memWrite a v).instrState = s.instrState := by unfold State.memWrite; split <;> rfl
@[simp] theorem State.memWrite_busAddr (a v : Word) : (s.memWrite a v).busAddr = s.busAddr := by unfold State.memWrite; split <;> rfl
@[simp] theorem State.memWrite_busDataOut (a v : Word) : (s.memWrite a v).busDataOut = s.busDataOut := by unfold State.memWrite; split <;> rfl
@[simp] theorem State.memWrite_busRw (a v : Word) : (s.memWrite a v).busRw = s.busRw := by unfold State.memWrite; split <;> rfl
@[simp] theorem State.memWrite_params (a v : Word) : (s.memWrite a v).params = s.params := by unfold State.memWrite; split <;> rfl
@[simp] theorem State.memWrite_lines (a v : Word) : (s.memWrite a v).lines = s.lines := by unfold State.memWrite; split <;> rfl

/-! ### `push` -/

@[simp] theorem State.push_ra (v : Word) : (s.push v).ra = s.ra := by simp [State.push]
@[simp] theorem State.push_rb (v : Word) : (s.push v).rb = s.rb := by simp [State.push]
@[simp] theorem State.push_rx (v : Word) : (s.push v).rx = s.rx := by simp [State.push]
@[simp] theorem State.push_ip (v : Word) : (s.push v).ip = s.ip := by simp [State.push]
@[simp] theorem State.push_sp (v : Word) : (s.push v).sp = s.sp - 1 := by simp [State.push]
@[simp] theorem State.push_qp (v : Word) : (s.push v).qp = s.qp := by simp [State.push]
@[simp] theorem State.push_ir (v : Word) : (s.push v).ir = s.ir := by simp [State.push]
@[simp] theorem State.push_flags (v : Word) : (s.push v).flags = s.flags := by simp [State.push]
@[simp] theorem State.push_tmp1 (v : Word) : (s.push v).tmp1 = s.tmp1 := by simp [State.push]
@[simp] theorem State.push_tmp2 (v : Word) : (s.push v).tmp2 = s.tmp2 := by simp [State.push]
@[simp] theorem State.push_tmp3 (v : Word) : (s.push v).tmp3 = s.tmp3 := by simp [State.push]
@[simp] theorem State.push_resetState (v : Word) : (s.push v).resetState = s.resetState := by simp [State.push]
@[simp] theorem State.push_instrState (v : Word) : (s.push v).instrState = s.instrState := by simp [State.push]
@[simp] theorem State.push_busAddr (v : Word) : (s.push v).busAddr = s.busAddr := by simp [State.push]
@[simp] theorem State.push_busDataOut (v : Word) : (s.push v).busDataOut = s.busDataOut := by simp [State.push]
@[simp] theorem State.push_busRw (v : Word) : (s.push v).busRw = s.busRw := by simp [State.push]
@[simp] theorem State.push_mem (v : Word) : (s.push v).mem = (s.memWrite s.sp v).mem := by simp [State.push]
@[simp] theorem State.push_params (v : Word) : (s.push v).params = s.params := by simp [State.push]
@[simp] theorem State.push_lines (v : Word) : (s.push v).lines = s.lines := by simp [State.push]

/-! ### `loadReg` -/

@[simp] theorem State.loadReg_ip (r : Reg) (v : Word) : (s.loadReg r v).ip = s.ip := by simp [State.loadReg]
@[simp] theorem State.loadReg_sp (r : Reg) (v : Word) : (s.loadReg r v).sp = s.sp := by simp [State.loadReg]
@[simp] theorem State.loadReg_qp (r : Reg) (v : Word) : (s.loadReg r v).qp = s.qp := by simp [State.loadReg]
@[simp] theorem State.loadReg_ir (r : Reg) (v : Word) : (s.loadReg r v).ir = s.ir := by simp [State.loadReg]
@[simp] theorem State.loadReg_flags (r : Reg) (v : Word) : (s.loadReg r v).flags = s.flags.afterLoad v := by simp [State.loadReg]
@[simp] theorem State.loadReg_tmp1 (r : Reg) (v : Word) : (s.loadReg r v).tmp1 = s.tmp1 := by simp [State.loadReg]
@[simp] theorem State.loadReg_tmp2 (r : Reg) (v : Word) : (s.loadReg r v).tmp2 = s.tmp2 := by simp [State.loadReg]
@[simp] theorem State.loadReg_tmp3 (r : Reg) (v : Word) : (s.loadReg r v).tmp3 = s.tmp3 := by simp [State.loadReg]
@[simp] theorem State.loadReg_resetState (r : Reg) (v : Word) : (s.loadReg r v).resetState = s.resetState := by simp [State.loadReg]
@[simp] theorem State.loadReg_instrState (r : Reg) (v : Word) : (s.loadReg r v).instrState = s.instrState := by simp [State.loadReg]
@[simp] theorem State.loadReg_busAddr (r : Reg) (v : Word) : (s.loadReg r v).busAddr = s.busAddr := by simp [State.loadReg]
@[simp] theorem State.loadReg_busDataOut (r : Reg) (v : Word) : (s.loadReg r v).busDataOut = s.busDataOut := by simp [State.loadReg]
@[simp] theorem State.loadReg_busRw (r : Reg) (v : Word) : (s.loadReg r v).busRw = s.busRw := by simp [State.loadReg]
@[simp] theorem State.loadReg_mem (r : Reg) (v : Word) : (s.loadReg r v).mem = s.mem := by simp [State.loadReg]
@[simp] theorem State.loadReg_params (r : Reg) (v : Word) : (s.loadReg r v).params = s.params := by simp [State.loadReg]
@[simp] theorem State.loadReg_lines (r : Reg) (v : Word) : (s.loadReg r v).lines = s.lines := by simp [State.loadReg]

/-! ### `aluReg` -/

@[simp] theorem State.aluReg_ip (op : AluOp) (r : Reg) (v : Word) : (s.aluReg op r v).ip = s.ip := by
  simp only [State.aluReg]; split <;> simp
@[simp] theorem State.aluReg_sp (op : AluOp) (r : Reg) (v : Word) : (s.aluReg op r v).sp = s.sp := by
  simp only [State.aluReg]; split <;> simp
@[simp] theorem State.aluReg_qp (op : AluOp) (r : Reg) (v : Word) : (s.aluReg op r v).qp = s.qp := by
  simp only [State.aluReg]; split <;> simp
@[simp] theorem State.aluReg_ir (op : AluOp) (r : Reg) (v : Word) : (s.aluReg op r v).ir = s.ir := by
  simp only [State.aluReg]; split <;> simp
@[simp] theorem State.aluReg_flags (op : AluOp) (r : Reg) (v : Word) : (s.aluReg op r v).flags = s.flags.apply (alu op (s.getReg r) v).update := by
  simp only [State.aluReg]; split <;> simp
@[simp] theorem State.aluReg_tmp1 (op : AluOp) (r : Reg) (v : Word) : (s.aluReg op r v).tmp1 = s.tmp1 := by
  simp only [State.aluReg]; split <;> simp
@[simp] theorem State.aluReg_tmp2 (op : AluOp) (r : Reg) (v : Word) : (s.aluReg op r v).tmp2 = s.tmp2 := by
  simp only [State.aluReg]; split <;> simp
@[simp] theorem State.aluReg_tmp3 (op : AluOp) (r : Reg) (v : Word) : (s.aluReg op r v).tmp3 = s.tmp3 := by
  simp only [State.aluReg]; split <;> simp
@[simp] theorem State.aluReg_resetState (op : AluOp) (r : Reg) (v : Word) : (s.aluReg op r v).resetState = s.resetState := by
  simp only [State.aluReg]; split <;> simp
@[simp] theorem State.aluReg_instrState (op : AluOp) (r : Reg) (v : Word) : (s.aluReg op r v).instrState = s.instrState := by
  simp only [State.aluReg]; split <;> simp
@[simp] theorem State.aluReg_busAddr (op : AluOp) (r : Reg) (v : Word) : (s.aluReg op r v).busAddr = s.busAddr := by
  simp only [State.aluReg]; split <;> simp
@[simp] theorem State.aluReg_busDataOut (op : AluOp) (r : Reg) (v : Word) : (s.aluReg op r v).busDataOut = s.busDataOut := by
  simp only [State.aluReg]; split <;> simp
@[simp] theorem State.aluReg_busRw (op : AluOp) (r : Reg) (v : Word) : (s.aluReg op r v).busRw = s.busRw := by
  simp only [State.aluReg]; split <;> simp
@[simp] theorem State.aluReg_mem (op : AluOp) (r : Reg) (v : Word) : (s.aluReg op r v).mem = s.mem := by
  simp only [State.aluReg]; split <;> simp
@[simp] theorem State.aluReg_params (op : AluOp) (r : Reg) (v : Word) : (s.aluReg op r v).params = s.params := by
  simp only [State.aluReg]; split <;> simp
@[simp] theorem State.aluReg_lines (op : AluOp) (r : Reg) (v : Word) : (s.aluReg op r v).lines = s.lines := by
  simp only [State.aluReg]; split <;> simp

/-! ### `writeOperand` -/

@[simp] theorem State.writeOperand_ip (dst : MoveOperand) (v : Word) : (s.writeOperand dst v).ip = s.ip := by
  cases dst <;> simp [State.writeOperand]
@[simp] theorem State.writeOperand_sp (dst : MoveOperand) (v : Word) : (s.writeOperand dst v).sp = s.sp := by
  cases dst <;> simp [State.writeOperand]
@[simp] theorem State.writeOperand_qp (dst : MoveOperand) (v : Word) : (s.writeOperand dst v).qp = s.qp := by
  cases dst <;> simp [State.writeOperand]
@[simp] theorem State.writeOperand_ir (dst : MoveOperand) (v : Word) : (s.writeOperand dst v).ir = s.ir := by
  cases dst <;> simp [State.writeOperand]
@[simp] theorem State.writeOperand_flags (dst : MoveOperand) (v : Word) : (s.writeOperand dst v).flags = s.flags := by
  cases dst <;> simp [State.writeOperand]
@[simp] theorem State.writeOperand_tmp1 (dst : MoveOperand) (v : Word) : (s.writeOperand dst v).tmp1 = s.tmp1 := by
  cases dst <;> simp [State.writeOperand]
@[simp] theorem State.writeOperand_tmp2 (dst : MoveOperand) (v : Word) : (s.writeOperand dst v).tmp2 = s.tmp2 := by
  cases dst <;> simp [State.writeOperand]
@[simp] theorem State.writeOperand_tmp3 (dst : MoveOperand) (v : Word) : (s.writeOperand dst v).tmp3 = s.tmp3 := by
  cases dst <;> simp [State.writeOperand]
@[simp] theorem State.writeOperand_resetState (dst : MoveOperand) (v : Word) : (s.writeOperand dst v).resetState = s.resetState := by
  cases dst <;> simp [State.writeOperand]
@[simp] theorem State.writeOperand_instrState (dst : MoveOperand) (v : Word) : (s.writeOperand dst v).instrState = s.instrState := by
  cases dst <;> simp [State.writeOperand]
@[simp] theorem State.writeOperand_busAddr (dst : MoveOperand) (v : Word) : (s.writeOperand dst v).busAddr = s.busAddr := by
  cases dst <;> simp [State.writeOperand]
@[simp] theorem State.writeOperand_params (dst : MoveOperand) (v : Word) : (s.writeOperand dst v).params = s.params := by
  cases dst <;> simp [State.writeOperand]
@[simp] theorem State.writeOperand_lines (dst : MoveOperand) (v : Word) : (s.writeOperand dst v).lines = s.lines := by
  cases dst <;> simp [State.writeOperand]

/-! ### `readyToFetch` -/

@[simp] theorem State.readyToFetch_ra : (s.readyToFetch).ra = s.ra := rfl
@[simp] theorem State.readyToFetch_rb : (s.readyToFetch).rb = s.rb := rfl
@[simp] theorem State.readyToFetch_rx : (s.readyToFetch).rx = s.rx := rfl
@[simp] theorem State.readyToFetch_ip : (s.readyToFetch).ip = s.ip := rfl
@[simp] theorem State.readyToFetch_sp : (s.readyToFetch).sp = s.sp := rfl
@[simp] theorem State.readyToFetch_qp : (s.readyToFetch).qp = s.qp := rfl
@[simp] theorem State.readyToFetch_ir : (s.readyToFetch).ir = s.ir := rfl
@[simp] theorem State.readyToFetch_flags : (s.readyToFetch).flags = s.flags := rfl
@[simp] theorem State.readyToFetch_tmp1 : (s.readyToFetch).tmp1 = 0 := rfl
@[simp] theorem State.readyToFetch_tmp2 : (s.readyToFetch).tmp2 = 0 := rfl
@[simp] theorem State.readyToFetch_tmp3 : (s.readyToFetch).tmp3 = 0 := rfl
@[simp] theorem State.readyToFetch_resetState : (s.readyToFetch).resetState = .run := rfl
@[simp] theorem State.readyToFetch_instrState : (s.readyToFetch).instrState = 0 := rfl
@[simp] theorem State.readyToFetch_busAddr : (s.readyToFetch).busAddr = s.ip := rfl
@[simp] theorem State.readyToFetch_busDataOut : (s.readyToFetch).busDataOut = 0 := rfl
@[simp] theorem State.readyToFetch_busRw : (s.readyToFetch).busRw = .read := rfl
@[simp] theorem State.readyToFetch_mem : (s.readyToFetch).mem = s.mem := rfl
@[simp] theorem State.readyToFetch_params : (s.readyToFetch).params = s.params := rfl
@[simp] theorem State.readyToFetch_lines : (s.readyToFetch).lines = [] := rfl

/-! ### `placeWord` -/

@[simp] theorem State.placeWord_ra (a v : Word) : (s.placeWord a v).ra = s.ra := rfl
@[simp] theorem State.placeWord_rb (a v : Word) : (s.placeWord a v).rb = s.rb := rfl
@[simp] theorem State.placeWord_rx (a v : Word) : (s.placeWord a v).rx = s.rx := rfl
@[simp] theorem State.placeWord_ip (a v : Word) : (s.placeWord a v).ip = s.ip := rfl
@[simp] theorem State.placeWord_sp (a v : Word) : (s.placeWord a v).sp = s.sp := rfl
@[simp] theorem State.placeWord_qp (a v : Word) : (s.placeWord a v).qp = s.qp := rfl
@[simp] theorem State.placeWord_ir (a v : Word) : (s.placeWord a v).ir = s.ir := rfl
@[simp] theorem State.placeWord_flags (a v : Word) : (s.placeWord a v).flags = s.flags := rfl
@[simp] theorem State.placeWord_tmp1 (a v : Word) : (s.placeWord a v).tmp1 = s.tmp1 := rfl
@[simp] theorem State.placeWord_tmp2 (a v : Word) : (s.placeWord a v).tmp2 = s.tmp2 := rfl
@[simp] theorem State.placeWord_tmp3 (a v : Word) : (s.placeWord a v).tmp3 = s.tmp3 := rfl
@[simp] theorem State.placeWord_resetState (a v : Word) : (s.placeWord a v).resetState = s.resetState := rfl
@[simp] theorem State.placeWord_instrState (a v : Word) : (s.placeWord a v).instrState = s.instrState := rfl
@[simp] theorem State.placeWord_busAddr (a v : Word) : (s.placeWord a v).busAddr = s.busAddr := rfl
@[simp] theorem State.placeWord_busDataOut (a v : Word) : (s.placeWord a v).busDataOut = s.busDataOut := rfl
@[simp] theorem State.placeWord_busRw (a v : Word) : (s.placeWord a v).busRw = s.busRw := rfl
@[simp] theorem State.placeWord_mem (a v : Word) : (s.placeWord a v).mem = s.mem.writeCell a v := rfl
@[simp] theorem State.placeWord_params (a v : Word) : (s.placeWord a v).params = Params.mapping s.params a := rfl
@[simp] theorem State.placeWord_lines (a v : Word) : (s.placeWord a v).lines = s.lines := rfl

/-! ### `resetRegisters` -/

@[simp] theorem State.resetRegisters_ra : (s.resetRegisters).ra = 0 := rfl
@[simp] theorem State.resetRegisters_rb : (s.resetRegisters).rb = 0 := rfl
@[simp] theorem State.resetRegisters_rx : (s.resetRegisters).rx = 0 := rfl
@[simp] theorem State.resetRegisters_ip : (s.resetRegisters).ip = 0 := rfl
@[simp] theorem State.resetRegisters_sp : (s.resetRegisters).sp = s.params.spInit := rfl
@[simp] theorem State.resetRegisters_qp : (s.resetRegisters).qp = 0 := rfl
@[simp] theorem State.resetRegisters_ir : (s.resetRegisters).ir = 0 := rfl
@[simp] theorem State.resetRegisters_flags : (s.resetRegisters).flags = Flags.clear := rfl
@[simp] theorem State.resetRegisters_tmp1 : (s.resetRegisters).tmp1 = 0 := rfl
@[simp] theorem State.resetRegisters_tmp2 : (s.resetRegisters).tmp2 = 0 := rfl
@[simp] theorem State.resetRegisters_tmp3 : (s.resetRegisters).tmp3 = 0 := rfl
@[simp] theorem State.resetRegisters_resetState : (s.resetRegisters).resetState = .rs0 := rfl
@[simp] theorem State.resetRegisters_instrState : (s.resetRegisters).instrState = 0 := rfl
@[simp] theorem State.resetRegisters_busAddr : (s.resetRegisters).busAddr = 0 := rfl
@[simp] theorem State.resetRegisters_busDataOut : (s.resetRegisters).busDataOut = 0 := rfl
@[simp] theorem State.resetRegisters_busRw : (s.resetRegisters).busRw = .read := rfl
@[simp] theorem State.resetRegisters_mem : (s.resetRegisters).mem = s.mem := rfl
@[simp] theorem State.resetRegisters_params : (s.resetRegisters).params = s.params := rfl
@[simp] theorem State.resetRegisters_lines : (s.resetRegisters).lines = s.lines := rfl

/-! ### General registers -/

@[simp] theorem State.getReg_setReg_same (r : Reg) (v : Word) : (s.setReg r v).getReg r = v := by cases r <;> rfl

@[simp] theorem State.getReg_setReg_other {q r : Reg} (h : q ≠ r) (v : Word) : (s.setReg r v).getReg q = s.getReg q := by
  cases q <;> cases r <;> first | rfl | exact absurd rfl h

@[simp] theorem State.getReg_commit (r : Reg) (t : Word) : (s.commit t).getReg r = s.getReg r := by cases r <;> rfl

@[simp] theorem State.getReg_settle (r : Reg) : s.settle.getReg r = s.getReg r := by cases r <;> rfl

@[simp] theorem State.getReg_clearScratch (r : Reg) : s.clearScratch.getReg r = s.getReg r := by cases r <;> rfl

@[simp] theorem State.getReg_clearTmp1 (r : Reg) : s.clearTmp1.getReg r = s.getReg r := by cases r <;> rfl

@[simp] theorem State.getReg_latch (r : Reg) : s.latch.getReg r = s.getReg r := by cases r <;> rfl

@[simp] theorem State.getReg_pop (r : Reg) : s.pop.getReg r = s.getReg r := by cases r <;> rfl

@[simp] theorem State.getReg_putFlag (r : Reg) (f : Flag) (b : Bool) : (s.putFlag f b).getReg r = s.getReg r := by
  cases r <;> rfl

@[simp] theorem State.getReg_memWrite (r : Reg) (a v : Word) : (s.memWrite a v).getReg r = s.getReg r := by
  cases r <;> simp [State.getReg]

@[simp] theorem State.getReg_push (r : Reg) (v : Word) : (s.push v).getReg r = s.getReg r := by
  cases r <;> simp [State.getReg]

@[simp] theorem State.getReg_loadReg_same (r : Reg) (v : Word) : (s.loadReg r v).getReg r = v := by simp [State.loadReg]

theorem State.getReg_loadReg_other {q r : Reg} (h : q ≠ r) (v : Word) : (s.loadReg r v).getReg q = s.getReg q := by
  simp only [State.loadReg, State.getReg_setReg_other _ h]; cases q <;> rfl

/-! ### Flags -/

@[simp] theorem Flags.get_put_same (f : Flags) (n : Flag) (b : Bool) : (f.put n b).get n = b := by cases n <;> rfl

@[simp] theorem Flags.get_put_other (f : Flags) {m n : Flag} (h : m ≠ n) (b : Bool) : (f.put n b).get m = f.get m := by
  cases m <;> cases n <;> first | rfl | exact absurd rfl h

end Sys2Proof.Machine
end

