-- ==== Sys2Proof/Laws/Memory.lean ====
section
/-! SUPPORT. The laws of the memory: what a byte, a cell and a transaction read after a write, and that every operation keeps
the canonical form. -/

namespace Sys2Proof.Machine

/-! ## Bytes -/

/-- A key below every entry of a canonical list is not listed. -/
theorem Memory.readByte_below {m : Memory} {low key : Nat} (h : Memory.wfFrom low m = true) (hk : key < low) :
    Memory.readByte m key = 0 := by
  induction m generalizing low with
  | nil => rfl
  | cons e rest ih =>
    obtain ⟨k, b⟩ := e
    simp only [Memory.wfFrom, Bool.and_eq_true, decide_eq_true_eq] at h
    rw [Memory.readByte, if_neg (by omega)]
    exact ih h.2 (by omega)

/-- The head of a canonical list. -/
theorem Memory.wfFrom_cons {low k : Nat} {b : Byte} {rest : Memory} :
    Memory.wfFrom low ((k, b) :: rest) = true ↔
      low ≤ k ∧ k < 4 * 2 ^ 32 ∧ b ≠ 0 ∧ Memory.wfFrom (k + 1) rest = true := by
  simp only [Memory.wfFrom, Bool.and_eq_true, decide_eq_true_eq, and_assoc]

/-- An entry in front is what its own key reads, if the key is not listed after it. -/
theorem Memory.readByte_entry_same {key : Nat} {rest : Memory} (v : Byte) (h : Memory.readByte rest key = 0) :
    (Memory.entry key v rest).readByte key = v := by
  by_cases hv : v = 0
  · rw [Memory.entry, if_pos hv, h, hv]
  · rw [Memory.entry, if_neg hv, Memory.readByte, if_pos rfl]

/-- An entry in front does not show at another key. -/
theorem Memory.readByte_entry_other {key key' : Nat} (v : Byte) (rest : Memory) (h : key' ≠ key) :
    (Memory.entry key v rest).readByte key' = rest.readByte key' := by
  by_cases hv : v = 0
  · rw [Memory.entry, if_pos hv]
  · rw [Memory.entry, if_neg hv, Memory.readByte, if_neg h.symm]

/-- Writing one key leaves every other key alone, canonical or not. -/
@[simp] theorem Memory.readByte_writeByte_other (m : Memory) {key key' : Nat} (v : Byte) (h : key' ≠ key) :
    (m.writeByte key v).readByte key' = m.readByte key' := by
  induction m with
  | nil => exact Memory.readByte_entry_other v [] h
  | cons e rest ih =>
    obtain ⟨k, b⟩ := e
    rw [Memory.writeByte]
    split
    · exact Memory.readByte_entry_other v _ h
    split
    · rename_i hk
      rw [Memory.readByte_entry_other v _ h, Memory.readByte, if_neg (fun e => h (e.symm.trans hk.symm))]
    · rw [Memory.readByte, ih, Memory.readByte]

/-- A key reads what was written to it. -/
theorem Memory.readByte_writeByte_same {m : Memory} {low : Nat} (h : Memory.wfFrom low m = true) (key : Nat)
    (v : Byte) : (m.writeByte key v).readByte key = v := by
  induction m generalizing low with
  | nil => exact Memory.readByte_entry_same v rfl
  | cons e rest ih =>
    obtain ⟨k, b⟩ := e
    obtain ⟨_, _, _, hr⟩ := Memory.wfFrom_cons.mp h
    rw [Memory.writeByte]
    split
    · rename_i hk
      refine Memory.readByte_entry_same v ?_
      rw [Memory.readByte, if_neg (by omega), Memory.readByte_below hr (by omega)]
    split
    · exact Memory.readByte_entry_same v (Memory.readByte_below hr (by omega))
    · rename_i hk
      rw [Memory.readByte, if_neg (fun e => hk e.symm), ih hr]

/-- A smaller lower bound is weaker. -/
theorem Memory.wfFrom_mono {m : Memory} {low low' : Nat} (h : Memory.wfFrom low m = true) (hl : low' ≤ low) :
    Memory.wfFrom low' m = true := by
  cases m with
  | nil => rfl
  | cons e rest =>
    obtain ⟨hlk, h⟩ := Memory.wfFrom_cons.mp h
    exact Memory.wfFrom_cons.mpr ⟨by omega, h⟩

/-- An entry in front keeps the canonical form, if its key lies below the rest. -/
theorem Memory.wfFrom_entry {low key : Nat} {rest : Memory} (v : Byte) (hl : low ≤ key) (hk : key < 4 * 2 ^ 32)
    (hr : Memory.wfFrom (key + 1) rest = true) : Memory.wfFrom low (Memory.entry key v rest) = true := by
  rw [Memory.entry]
  split
  · exact Memory.wfFrom_mono hr (by omega)
  · rename_i hv
    exact Memory.wfFrom_cons.mpr ⟨hl, hk, hv, hr⟩

/-- A byte write keeps the canonical form. -/
theorem Memory.wfFrom_writeByte {m : Memory} {low key : Nat} {v : Byte} (h : Memory.wfFrom low m = true)
    (hl : low ≤ key) (hk : key < 4 * 2 ^ 32) : Memory.wfFrom low (m.writeByte key v) = true := by
  induction m generalizing low with
  | nil => exact Memory.wfFrom_entry v hl hk rfl
  | cons e rest ih =>
    obtain ⟨k, b⟩ := e
    obtain ⟨hlk, hkb, hb, hr⟩ := Memory.wfFrom_cons.mp h
    rw [Memory.writeByte]
    split
    · exact Memory.wfFrom_entry v hl hk (Memory.wfFrom_cons.mpr ⟨by omega, hkb, hb, hr⟩)
    split
    · rename_i he
      exact Memory.wfFrom_entry v hl hk (he ▸ hr)
    · exact Memory.wfFrom_cons.mpr ⟨hlk, hkb, hb, ih hr (by omega)⟩

/-! ## Cells -/

theorem byteKey_lt (a : Word) {j : Nat} (hj : j < 4) : byteKey a j < 4 * 2 ^ 32 := by
  have := a.isLt; unfold byteKey; omega

theorem byteKey_inj {a b : Word} {i j : Nat} (hi : i < 4) (hj : j < 4) (h : byteKey a i = byteKey b j) : a = b ∧ i = j := by
  unfold byteKey at h
  exact ⟨BitVec.eq_of_toNat_eq (by omega), by omega⟩

theorem byteKey_ne_index (a : Word) {i j : Nat} (h : i ≠ j) : byteKey a i ≠ byteKey a j := by unfold byteKey; omega

theorem byteKey_ne {a b : Word} (h : a ≠ b) {i j : Nat} (hi : i < 4) (hj : j < 4) : byteKey a i ≠ byteKey b j :=
  fun e => h (byteKey_inj hi hj e).1

/-- The four bytes of a word, put together again. -/
theorem word_of_bytes (v : Word) :
    (v.extractLsb' 24 8 ++ v.extractLsb' 16 8 ++ v.extractLsb' 8 8 ++ v.extractLsb' 0 8 : BitVec 32) = v := by
  apply BitVec.eq_of_getLsbD_eq
  intro i hi
  simp only [BitVec.getLsbD_append, BitVec.getLsbD_extractLsb']
  by_cases h0 : i < 8
  · simp [h0]
  by_cases h1 : i - 8 < 8
  · simp [h0, h1]; congr 1; omega
  by_cases h2 : i - 8 - 8 < 8
  · simp [h0, h1, h2]; congr 1; omega
  · have h3 : i - 8 - 8 - 8 < 8 := by omega
    simp [h0, h1, h2, h3]; congr 1; omega

/-- A cell write keeps the canonical form. -/
theorem Memory.wf_writeCell {m : Memory} (h : m.wf = true) (a v : Word) : (m.writeCell a v).wf = true := by
  unfold Memory.wf Memory.writeCell
  iterate 4 refine Memory.wfFrom_writeByte ?_ (Nat.zero_le _) (byteKey_lt a (by omega))
  exact h

/-- Writing one cell leaves every other cell alone, canonical or not. -/
@[simp] theorem Memory.readCell_writeCell_other (m : Memory) {a b : Word} (v : Word) (h : b ≠ a) :
    (m.writeCell a v).readCell b = m.readCell b := by
  have ne (i j : Nat) (hi : i < 4) (hj : j < 4) : byteKey b i ≠ byteKey a j := byteKey_ne h hi hj
  simp [Memory.readCell, Memory.writeCell, ne]

/-- A cell reads the word written to it. -/
@[simp] theorem Memory.readCell_writeCell_same {m : Memory} (h : m.wf = true) (a v : Word) :
    (m.writeCell a v).readCell a = v := by
  have k (j : Nat) (hj : j < 4) : byteKey a j < 4 * 2 ^ 32 := byteKey_lt a hj
  have w0 := Memory.wfFrom_writeByte (v := v.extractLsb' 0 8) h (Nat.zero_le _) (k 0 (by omega))
  have w1 := Memory.wfFrom_writeByte (v := v.extractLsb' 8 8) w0 (Nat.zero_le _) (k 1 (by omega))
  have w2 := Memory.wfFrom_writeByte (v := v.extractLsb' 16 8) w1 (Nat.zero_le _) (k 2 (by omega))
  simp only [Memory.readCell, Memory.writeCell]
  rw [Memory.readByte_writeByte_same w2, Memory.readByte_writeByte_other _ _ (byteKey_ne_index a (by omega)),
    Memory.readByte_writeByte_same w1, Memory.readByte_writeByte_other _ _ (byteKey_ne_index a (by omega)),
    Memory.readByte_writeByte_other _ _ (byteKey_ne_index a (by omega)), Memory.readByte_writeByte_same w0,
    Memory.readByte_writeByte_other _ _ (byteKey_ne_index a (by omega)),
    Memory.readByte_writeByte_other _ _ (byteKey_ne_index a (by omega)),
    Memory.readByte_writeByte_other _ _ (byteKey_ne_index a (by omega)), Memory.readByte_writeByte_same h]
  exact word_of_bytes v

/-! ## Transactions -/

/-- A read depends on the memory and the parameters only. -/
theorem State.memRead_congr {s t : State} (hm : t.mem = s.mem) (hp : t.params = s.params) (a : Word) :
    t.memRead a = s.memRead a := by simp [State.memRead, hm, hp]

/-- A write leaves every other address reading as before. -/
@[simp] theorem State.memRead_memWrite_other (s : State) {a b : Word} (v : Word) (h : b ≠ a) :
    (s.memWrite a v).memRead b = s.memRead b := by
  by_cases hm : Params.maps s.params a = true <;> simp [State.memRead, State.memWrite, hm, h]

/-- A mapped address reads what was written to it. -/
theorem State.memRead_memWrite_same {s : State} (h : s.mem.wf = true) {a : Word} (hm : Params.maps s.params a = true)
    (v : Word) : (s.memWrite a v).memRead a = v := by
  simp [State.memRead, State.memWrite, hm, h]

/-- A write to an unmapped address changes nothing. -/
theorem State.memWrite_unmapped {s : State} {a : Word} (hm : Params.maps s.params a = false) (v : Word) :
    s.memWrite a v = s := by simp [State.memWrite, hm]

/-- A write transaction keeps the canonical form. -/
theorem State.wf_memWrite {s : State} (h : s.mem.wf = true) (a v : Word) : (s.memWrite a v).mem.wf = true := by
  unfold State.memWrite
  split
  · exact Memory.wf_writeCell h a v
  · exact h

/-- Placing a word keeps the canonical form. -/
theorem State.wf_placeWord {s : State} (h : s.mem.wf = true) (a v : Word) : (s.placeWord a v).mem.wf = true :=
  Memory.wf_writeCell h a v

/-- Retiring a transaction keeps the canonical form. -/
theorem State.wf_retire {s : State} (h : s.mem.wf = true) (l : Lines) : (s.retire l).mem.wf = true := by
  unfold State.retire
  split
  · exact State.wf_memWrite h _ _
  · exact h
  · exact h

/-- The memory of the reset state has the canonical form. -/
theorem State.reset_mem_wf : State.reset.mem.wf = true := rfl

/-! ## Reads through the updates that leave memory alone -/

@[simp] theorem State.memRead_commit (s : State) (t a : Word) : (s.commit t).memRead a = s.memRead a := rfl

@[simp] theorem State.memRead_settle (s : State) (a : Word) : s.settle.memRead a = s.memRead a := rfl

@[simp] theorem State.memRead_clearScratch (s : State) (a : Word) : s.clearScratch.memRead a = s.memRead a := rfl

@[simp] theorem State.memRead_clearTmp1 (s : State) (a : Word) : s.clearTmp1.memRead a = s.memRead a := rfl

@[simp] theorem State.memRead_latch (s : State) (a : Word) : s.latch.memRead a = s.memRead a := rfl

@[simp] theorem State.memRead_pop (s : State) (a : Word) : s.pop.memRead a = s.memRead a := rfl

@[simp] theorem State.memRead_putFlag (s : State) (f : Flag) (b : Bool) (a : Word) :
    (s.putFlag f b).memRead a = s.memRead a := rfl

@[simp] theorem State.memRead_setReg (s : State) (r : Reg) (v a : Word) : (s.setReg r v).memRead a = s.memRead a :=
  State.memRead_congr (by simp) (by simp) a

@[simp] theorem State.memRead_loadReg (s : State) (r : Reg) (v a : Word) : (s.loadReg r v).memRead a = s.memRead a :=
  State.memRead_congr (by simp) (by simp) a

@[simp] theorem State.memRead_aluReg (s : State) (op : AluOp) (r : Reg) (v a : Word) :
    (s.aluReg op r v).memRead a = s.memRead a := State.memRead_congr (by simp) (by simp) a

@[simp] theorem State.memRead_push (s : State) (v a : Word) : (s.push v).memRead a = (s.memWrite s.sp v).memRead a :=
  State.memRead_congr (by simp) (by simp) a

end Sys2Proof.Machine
end

