-- ==== Sys2Proof/Laws/Ops.lean ====
section
/-! SUPPORT. The spec lemmas of the shared operations: what each can answer, said once, so that a proof about an instruction
cites them and unfolds none of them. -/

namespace Sys2Proof.Machine

/-! ## Shapes -/

/-- All that a sequential instruction can answer. -/
theorem sequential_next_iff {words : Word} {effect : State → State} {s t : State} :
    sequential words effect s = .next t ↔ t = (effect s).commit (s.ip + words) := by
  rw [sequential, Host.Outcome.next.injEq, eq_comm]

/-- All that a push instruction can answer. -/
theorem pushShape_next_iff {r : Reg} {s t : State} :
    pushShape r s = .next t ↔ t = (s.push (s.getReg r)).settle.commit (s.ip + 1) := sequential_next_iff

/-- All that a pop instruction can answer. -/
theorem popShape_next_iff {r : Reg} {s t : State} :
    popShape r s = .next t ↔ t = (s.pop.setReg r s.popped).settle.commit (s.ip + 1) := sequential_next_iff

/-- All that a conditional jump can answer. -/
theorem jumpShape_next_iff {f : Flag} {wanted : Bool} {target : Word} {s t : State} :
    jumpShape f wanted target s = .next t ↔
      (s.flags.get f = wanted ∧ t = s.commit target) ∨ (s.flags.get f ≠ wanted ∧ t = s.commit (s.ip + 2)) := by
  rw [jumpShape, Host.Outcome.next.injEq]
  split <;> rename_i h <;> simp [h, eq_comm]

/-! ## ALU -/

@[simp] theorem alu_add (a b : Word) : alu .add a b = aluAnswer (a + b) := rfl
@[simp] theorem alu_sub (a b : Word) : alu .sub a b = aluAnswer (a - b) := rfl
@[simp] theorem alu_inc (a b : Word) : alu .inc a b = aluAnswer (a + 1) := rfl
@[simp] theorem alu_dec (a b : Word) : alu .dec a b = aluAnswer (a - 1) := rfl
@[simp] theorem aluAnswer_result (r : Word) : (aluAnswer r).result = r := rfl
@[simp] theorem aluAnswer_update (r : Word) : (aluAnswer r).update = .zeroNegative (r == 0) r.msb := rfl
@[simp] theorem aluAnswer_commits (r : Word) : (aluAnswer r).commits = true := rfl

/-- An operation is one of the four or undefined, and only an undefined one does not commit (R142). -/
theorem alu_commits_iff (op : AluOp) (a b : Word) : (alu op a b).commits = true ↔ op ≠ .other := by cases op <;> simp [alu, AluAnswer.commits]

/-- All that an ALU request with a defined operation does to the state. -/
theorem State.aluReg_defined (s : State) {op : AluOp} (h : op ≠ .other) (r : Reg) (v : Word) :
    s.aluReg op r v =
      { s with flags := s.flags.apply (alu op (s.getReg r) v).update }.setReg r (alu op (s.getReg r) v).result := by
  rw [State.aluReg]; exact if_pos ((alu_commits_iff op _ _).mpr h)

/-- The destination register after a defined operation. -/
theorem State.getReg_aluReg_same (s : State) {op : AluOp} (h : op ≠ .other) (r : Reg) (v : Word) :
    (s.aluReg op r v).getReg r = (alu op (s.getReg r) v).result := by
  rw [State.aluReg_defined s h, State.getReg_setReg_same]

/-- No other register changes, whatever the operation. -/
theorem State.getReg_aluReg_other (s : State) (op : AluOp) {q r : Reg} (h : q ≠ r) (v : Word) :
    (s.aluReg op r v).getReg q = s.getReg q := by
  simp only [State.aluReg]
  split
  · rw [State.getReg_setReg_other _ h]; cases q <;> rfl
  · cases q <;> rfl

/-! ## Flag updates -/

/-- The flags after a load: ZERO and nothing else (R31). -/
theorem Flags.get_afterLoad (f : Flags) (v : Word) (n : Flag) :
    (f.afterLoad v).get n = if n = .zero then v == 0 else f.get n := by cases n <;> rfl

/-- The flags after a defined ALU operation: ZERO and NEGATIVE and nothing else (R140, R141). -/
theorem Flags.get_apply_zeroNegative (f : Flags) (z n : Bool) (m : Flag) :
    (f.apply (.zeroNegative z n)).get m = if m = .zero then z else if m = .negative then n else f.get m := by cases m <;> rfl

/-- The flags after an undefined ALU operation: ERROR alone (R142). -/
theorem Flags.apply_undefinedOp (f : Flags) : f.apply .undefinedOp = ⟨false, false, false, true, false⟩ := rfl

/-! ## Operands of `MOVE` -/

/-- All that writing a register operand does. -/
@[simp] theorem State.writeOperand_reg (s : State) (r : Reg) (v : Word) : s.writeOperand (.reg r) v = s.setReg r v := rfl

/-- All that writing a cell operand does. -/
@[simp] theorem State.writeOperand_cell (s : State) (a v : Word) : s.writeOperand (.cell a) v = (s.memWrite a v).settle := rfl

@[simp] theorem State.readOperand_reg (s : State) (r : Reg) : s.readOperand (.reg r) = s.getReg r := rfl

@[simp] theorem State.readOperand_cell (s : State) (a : Word) : s.readOperand (.cell a) = s.memRead a := rfl

/-! ## Reset -/

/-- The reset state is a fixed point of the reset (R336). -/
theorem State.reset_resetRegisters : State.reset.resetRegisters = State.reset := rfl

/-- A second reset does nothing more (R336). -/
@[simp] theorem State.resetRegisters_resetRegisters (s : State) : s.resetRegisters.resetRegisters = s.resetRegisters := rfl

end Sys2Proof.Machine
end

