-- ==== Sys2Proof/Laws/Tick.lean ====
section
/-! SUPPORT. What a tick and a step can do, said once: an equation for each case, and the inversion lemmas that every proof about
ticks, runs and steps cites. -/

namespace Sys2Proof.Machine

/-! ## One tick -/

/-- A tick with `rst` asserted (R131, R336). -/
theorem tick_rst (stall : Bool) (s : State) : tick ⟨true, stall⟩ s = .next s.resetRegisters := by
  simp [tick, tickRegisters, State.retire, State.retiring]

/-- A tick with a wait state (R70). -/
@[simp] theorem tick_stall (s : State) : tick ⟨false, true⟩ s = .next s := by
  simp [tick, tickRegisters, State.retire, State.retiring]

/-- Any tick with `rst` asserted or with a wait state retires nothing. -/
theorem retire_inactive {l : Lines} (h : (l.rst || l.stall) = true) (s : State) : s.retire l = s := by
  simp [State.retire, State.retiring, h]

/-- Retiring a transaction touches memory only. -/
theorem retire_eq (s : State) (l : Lines) : ∃ m, s.retire l = { s with mem := m } := by
  simp only [State.retire]
  split
  · simp only [State.memWrite]; split <;> exact ⟨_, rfl⟩
  · exact ⟨_, rfl⟩
  · exact ⟨_, rfl⟩

@[simp] theorem retire_resetState (s : State) (l : Lines) : (s.retire l).resetState = s.resetState := by
  obtain ⟨m, h⟩ := retire_eq s l; rw [h]

@[simp] theorem retire_instrState (s : State) (l : Lines) : (s.retire l).instrState = s.instrState := by
  obtain ⟨m, h⟩ := retire_eq s l; rw [h]

/-- An un-stalled tick: the presented transaction, then one of the three cycles. -/
theorem tick_quiet (s : State) :
    tick Lines.quiet s =
      if s.resetState ≠ .run then .next ((s.retire Lines.quiet).resetCycle s.dataIn)
      else if s.instrState = 0 then .next ((s.retire Lines.quiet).fetchCycle s.dataIn)
      else (s.retire Lines.quiet).executeCycle s.dataIn := by
  have hl (u : State) (d : Word) : tickRegisters u Lines.quiet d =
      if u.resetState ≠ .run then .next (u.resetCycle d) else if u.instrState = 0 then .next (u.fetchCycle d)
      else u.executeCycle d := rfl
  rw [tick, hl, retire_resetState, retire_instrState]

/-- All that a tick can do when it does not stop. -/
theorem tick_cases {l : Lines} {s t : State} (h : tick l s = .next t) :
    (l.rst = true ∧ t = s.resetRegisters) ∨
    (l = ⟨false, true⟩ ∧ t = s) ∨
    (l = Lines.quiet ∧ s.resetState ≠ .run ∧ t = (s.retire Lines.quiet).resetCycle s.dataIn) ∨
    (l = Lines.quiet ∧ s.resetState = .run ∧ s.instrState = 0 ∧ t = (s.retire Lines.quiet).fetchCycle s.dataIn) ∨
    (l = Lines.quiet ∧ s.resetState = .run ∧ s.instrState ≠ 0 ∧ ∃ row,
      (s.retire Lines.quiet).currentRow s.dataIn = some row ∧ t = row.apply (s.retire Lines.quiet)) := by
  obtain ⟨_ | _, _ | _⟩ := l
  · rw [show (⟨false, false⟩ : Lines) = Lines.quiet from rfl, tick_quiet] at h
    split at h
    · exact .inr (.inr (.inl ⟨rfl, ‹_›, by cases h; rfl⟩))
    split at h
    · exact .inr (.inr (.inr (.inl ⟨rfl, by simp_all, ‹_›, by cases h; rfl⟩)))
    · rw [State.executeCycle] at h
      split at h
      · exact .inr (.inr (.inr (.inr ⟨rfl, by simp_all, ‹_›, _, ‹_›, by cases h; rfl⟩)))
      · cases h
  · rw [tick_stall] at h; cases h; exact .inr (.inl ⟨rfl, rfl⟩)
  · rw [tick_rst] at h; cases h; exact .inl ⟨rfl, rfl⟩
  · rw [tick_rst] at h; cases h; exact .inl ⟨rfl, rfl⟩

/-- No tick refuses. -/
theorem tick_ne_refused (l : Lines) (s : State) (r : Refusal) : tick l s ≠ .refused r := by
  simp only [tick, tickRegisters, State.executeCycle]
  repeat' split
  all_goals simp

/-! ## The cycles -/

/-- What a quiet tick finds at a boundary: a read at `IP` (R44). -/
theorem atBoundary_iff {s : State} :
    s.atBoundary = true ↔ s.resetState = .run ∧ s.instrState = 0 ∧ s.busAddr = s.ip ∧ s.busRw = .read ∧ s.busDataOut = 0 ∧
      s.tmp1 = 0 ∧ s.tmp2 = 0 ∧ s.tmp3 = 0 := by
  simp only [State.atBoundary, Bool.and_eq_true, decide_eq_true_eq, and_assoc]

/-- With a read presented, a retiring tick leaves the memory alone. -/
theorem retire_read {s : State} (h : s.busRw = .read) (l : Lines) : s.retire l = s := by
  simp only [State.retire, State.retiring, State.presented, h]
  by_cases hl : (l.rst || l.stall) = true <;> simp [hl]

/-- With a write presented, an un-stalled tick performs it. -/
theorem retire_write {s : State} (h : s.busRw = .write) : s.retire Lines.quiet = s.memWrite s.busAddr s.busDataOut := by
  simp [State.retire, State.retiring, State.presented, h, Lines.quiet]

/-- With a read presented, `data_in` is the word read. -/
theorem dataIn_read {s : State} (h : s.busRw = .read) : s.dataIn = s.memRead s.busAddr := by simp [State.dataIn, h]

/-- The fetch cycle, from a boundary (R132). -/
theorem tick_boundary {s : State} (h : s.atBoundary = true) :
    tick Lines.quiet s = .next { s with ir := s.memRead s.ip, instrState := 1 } := by
  obtain ⟨hr, hi, ha, hw, -⟩ := atBoundary_iff.mp h
  rw [tick_quiet, retire_read hw, dataIn_read hw, show s.memRead s.busAddr = s.memRead s.ip by rw [ha],
    if_neg (not_not.mpr hr), if_pos hi]
  rfl

/-- An execute cycle that reads (R133). -/
theorem tick_execute_read {s : State} {row : CycleRow} (hr : s.resetState = .run) (hi : s.instrState ≠ 0)
    (hw : s.busRw = .read) (hrow : s.currentRow (s.memRead s.busAddr) = some row) :
    tick Lines.quiet s = .next (row.apply s) := by
  rw [tick_quiet, retire_read hw, dataIn_read hw]
  rw [if_neg (not_not.mpr hr), if_neg hi, State.executeCycle, hrow]

/-- An execute cycle that writes (R133, R62): the write is performed, whatever `data_in` carries. -/
theorem tick_execute_write {s : State} {row : CycleRow} (hr : s.resetState = .run) (hi : s.instrState ≠ 0)
    (hw : s.busRw = .write)
    (hrow : (s.memWrite s.busAddr s.busDataOut).currentRow (Config.dataInDuringWrite s.busAddr s.busDataOut) = some row) :
    tick Lines.quiet s = .next (row.apply (s.memWrite s.busAddr s.busDataOut)) := by
  rw [tick_quiet, retire_write hw, show s.dataIn = Config.dataInDuringWrite s.busAddr s.busDataOut by simp [State.dataIn, hw]]
  rw [if_neg (not_not.mpr hr), if_neg hi, State.executeCycle, hrow]

/-! ## What no row and no retiring transaction touches -/

/-- A cycle row writes no `QP`, `IR`, `tmp3`, `reset_state`, memory, parameter or scheduled line (R135). -/
theorem CycleRow.apply_frame (row : CycleRow) (s : State) :
    (row.apply s).qp = s.qp ∧ (row.apply s).ir = s.ir ∧ (row.apply s).tmp3 = s.tmp3 ∧
      (row.apply s).resetState = s.resetState ∧ (row.apply s).mem = s.mem ∧ (row.apply s).params = s.params ∧
      (row.apply s).lines = s.lines := by
  simp only [CycleRow.apply]
  rcases row.commit with _ | t <;> rcases row.stack with _ | ⟨_⟩ | _ <;> exact ⟨rfl, rfl, rfl, rfl, rfl, rfl, rfl⟩

/-- A committing row sets `IP` and the bus address to its payload and `instr_state` to 0 (R136). -/
theorem CycleRow.apply_commit {row : CycleRow} {t : Word} (h : row.commit = some t) (s : State) :
    (row.apply s).ip = t ∧ (row.apply s).busAddr = t ∧ (row.apply s).instrState = 0 := by
  simp only [CycleRow.apply, h]
  exact ⟨rfl, rfl, rfl⟩

/-- A row that does not commit counts the cycle (R35, R133). -/
theorem CycleRow.apply_no_commit {row : CycleRow} (h : row.commit = none) (s : State) :
    (row.apply s).instrState = s.instrState + 1 := by
  simp only [CycleRow.apply, h]
  rcases row.stack with _ | ⟨_⟩ | _ <;> rfl

/-! ## The end-of-instruction pulse -/

/-- The row of a cycle does not depend on the memory, which reaches a row through `data_in` only (R135). -/
theorem currentRow_mem (s : State) (m : Memory) (d : Word) : ({ s with mem := m } : State).currentRow d = s.currentRow d := by
  have hg (r : Reg) : ({ s with mem := m } : State).getReg r = s.getReg r := by cases r <;> rfl
  simp only [State.currentRow, State.protocol]
  cases decode s.ir 0 0 <;> rcases s.instrState.toNat with _ | _ | _ | _ | _ | _ | k <;>
    simp [cycleTable, zeroOperandTable, immediateTable, absoluteTable, pushTable, popTable, returnTable, callTable, moveTable,
      branchTable, advanceRow, aluRow, loadRow, settleRow, hg]

/-- No pulse in a cycle with a wait state or a reset. -/
theorem endInstr_inactive {l : Lines} (h : (l.rst || l.stall) = true) (s : State) : s.endInstr l = none := by
  simp [State.endInstr, h]

/-- No pulse in a fetch cycle. -/
theorem endInstr_fetch {s : State} (h : s.instrState = 0) (l : Lines) : s.endInstr l = none := by
  simp [State.endInstr, h]

/-- What an execute cycle does by its pulse: with one it commits to the payload, without one it counts (R36, R133, R136). -/
theorem endInstr_execute {s t : State} (hr : s.resetState = .run) (hi : s.instrState ≠ 0) (ht : tick Lines.quiet s = .next t) :
    (s.endInstr Lines.quiet = none ∧ t.instrState = s.instrState + 1) ∨
      (s.endInstr Lines.quiet = some t.ip ∧ t.busAddr = t.ip ∧ t.instrState = 0) := by
  rcases tick_cases ht with ⟨h, -⟩ | ⟨h, -⟩ | ⟨-, h, -⟩ | ⟨-, -, h, -⟩ | ⟨-, -, -, row, hrow, rfl⟩
  · cases h
  · cases h
  · exact absurd hr h
  · exact absurd h hi
  obtain ⟨m, hm⟩ := retire_eq s Lines.quiet
  rw [hm, currentRow_mem] at hrow
  rw [hm]
  have he : s.endInstr Lines.quiet = row.commit := by
    rw [State.endInstr, if_neg (by decide), if_pos ⟨hr, hi⟩, hrow]; rfl
  rw [he]
  rcases hc : row.commit with _ | a
  · exact .inl ⟨rfl, CycleRow.apply_no_commit hc _⟩
  · obtain ⟨h1, h2, h3⟩ := CycleRow.apply_commit hc { s with mem := m }
    exact .inr ⟨by rw [h1], by rw [h1, h2], h3⟩

/-! ## Runs of ticks -/

@[simp] theorem tickLines_nil (s : State) : tickLines [] s = .next s := rfl

/-- The first tick of a run. -/
theorem tickLines_cons {l : Lines} {rest : List Lines} {s t : State} (h : tick l s = .next t) :
    tickLines (l :: rest) s = tickLines rest t := by rw [tickLines, h]

/-- A wait state in front of a run makes no difference (R70). -/
@[simp] theorem tickLines_stall (rest : List Lines) (s : State) : tickLines (⟨false, true⟩ :: rest) s = tickLines rest s :=
  tickLines_cons (tick_stall s)

/-- A run cut in two. -/
theorem tickLines_append {ls ls' : List Lines} {s t : State} (h : tickLines ls s = .next t) :
    tickLines (ls ++ ls') s = tickLines ls' t := by
  induction ls generalizing s with
  | nil => cases h; rfl
  | cons l rest ih =>
    rw [tickLines] at h
    split at h
    · rename_i u hu
      rw [List.cons_append, tickLines_cons hu, ih h]
    · cases h
    · cases h

/-! ## Steps -/

/-- All that a step is: a scheduled tick, a whole instruction, or an unscheduled tick. -/
theorem step_cases (s : State) :
    (∃ l rest, s.lines = l :: rest ∧ step s = tick l { s with lines := rest }) ∨
    (s.lines = [] ∧ s.atBoundary = true ∧ step s = exec s.fetchInstr s.latch) ∨
    (s.lines = [] ∧ s.atBoundary = false ∧ step s = tick Lines.quiet s) := by
  rcases h : s.lines with _ | ⟨l, rest⟩
  · rcases hb : s.atBoundary with _ | _
    · exact .inr (.inr ⟨rfl, rfl, by simp [step, h, hb]⟩)
    · exact .inr (.inl ⟨rfl, rfl, by simp [step, h, hb, runInstruction]⟩)
  · exact .inl ⟨l, rest, rfl, by simp [step, h]⟩

end Sys2Proof.Machine
end

