-- ==== Sys2Proof/Laws/Decode.lean ====
section
/-! SUPPORT. The laws of the registry and of the decoder: what a lookup can answer, and how the operand words of `MOVE` read and
write back. -/

namespace Sys2Proof

/-- What a lookup answers is a row of the table, with the opcode looked up (R102). -/
theorem lookup_some {w : Word} {d : Descriptor} (h : lookup w = some d) : d ∈ registryRows ∧ d.opcode = w :=
  ⟨List.mem_of_find?_eq_some h, by simpa using List.find?_some h⟩

/-- A word that is no row's opcode is not found. -/
theorem lookup_none {w : Word} (h : ∀ d ∈ registryRows, d.opcode ≠ w) : lookup w = none := by
  rw [lookup, List.find?_eq_none]
  intro d hd
  simpa using h d hd

/-- An assigned opcode decodes to what its row builds. -/
theorem decode_assigned {w : Word} {d : Descriptor} (h : lookup w = some d) (p q : Word) : decode w p q = d.build p q := by
  rw [decode, h]

/-- An unassigned opcode decodes to the no-operation (R112). -/
theorem decode_unassigned {w : Word} (h : lookup w = none) (p q : Word) : decode w p q = .nop := by rw [decode, h]

/-- The three register ids, and nothing else, name a register (R280). -/
theorem regOfId?_isSome (w : Word) : (regOfId? w).isSome = isRegId w := by
  unfold regOfId? isRegId
  by_cases ha : w = Config.regIdA
  · simp [ha]
  by_cases hb : w = Config.regIdB
  · simp [hb, show (Config.regIdB = Config.regIdA) = False by decide]
  by_cases hx : w = Config.regIdX
  · subst hx; rfl
  · simp [ha, hb, hx]

/-- The id of a register names it. -/
@[simp] theorem regOfId?_id (r : Reg) : regOfId? r.id = some r := by cases r <;> rfl

/-- The operand word of a well-formed operand reads back as the operand. -/
theorem MoveOperand.ofWord_toWord {m : MoveOperand} (h : m.wellFormed = true) : MoveOperand.ofWord m.toWord = m := by
  cases m with
  | reg r => simp [MoveOperand.toWord, MoveOperand.ofWord]
  | cell addr =>
    have hn : regOfId? addr = none := by
      rw [← Option.not_isSome_iff_eq_none, regOfId?_isSome]
      simpa [MoveOperand.wellFormed] using h
    simp [MoveOperand.toWord, MoveOperand.ofWord, hn]

/-- A list that decodes, decodes to what the decoder reads from its first words. -/
theorem decode_of_decodeList {w p q : Word} {i : Instr} {rest : List Word} (h : decodeList [w, p, q] = .ok (i, rest)) :
    decode w p q = i := by
  rcases hl : lookup w with _ | d
  · simp only [decodeList, hl] at h
    cases h
    exact decode_unassigned hl p q
  · simp only [decodeList, hl] at h
    split at h
    · cases h
    · cases h
      exact decode_assigned hl p q

end Sys2Proof
end

