-- ==== Sys2Proof/Laws/PerInstr.lean ====
section
/-! SUPPORT. Statements about every instruction as syntax, one lemma for each constructor. -/

namespace Sys2Proof.Laws.EncodingLength

open Sys2Proof

/-- The opcode word of an instruction alone tells how many words the instruction has (R106), and that is one, two or three
(R100). -/
def Statement (i : Instr) : Prop :=
  decodeLength ((encode i).headD 0) = (encode i).length ∧ 1 ≤ (encode i).length ∧ (encode i).length ≤ 3

theorem nop : Statement .nop := ⟨rfl, by decide, by decide⟩
theorem setZero : Statement .setZero := ⟨rfl, by decide, by decide⟩
theorem clearZero : Statement .clearZero := ⟨rfl, by decide, by decide⟩
theorem setCarry : Statement .setCarry := ⟨rfl, by decide, by decide⟩
theorem clearCarry : Statement .clearCarry := ⟨rfl, by decide, by decide⟩
theorem setNegative : Statement .setNegative := ⟨rfl, by decide, by decide⟩
theorem clearNegative : Statement .clearNegative := ⟨rfl, by decide, by decide⟩
theorem setError : Statement .setError := ⟨rfl, by decide, by decide⟩
theorem clearError : Statement .clearError := ⟨rfl, by decide, by decide⟩
theorem setOverflow : Statement .setOverflow := ⟨rfl, by decide, by decide⟩
theorem clearOverflow : Statement .clearOverflow := ⟨rfl, by decide, by decide⟩
theorem incA : Statement .incA := ⟨rfl, by decide, by decide⟩
theorem incB : Statement .incB := ⟨rfl, by decide, by decide⟩
theorem incX : Statement .incX := ⟨rfl, by decide, by decide⟩
theorem decA : Statement .decA := ⟨rfl, by decide, by decide⟩
theorem decB : Statement .decB := ⟨rfl, by decide, by decide⟩
theorem decX : Statement .decX := ⟨rfl, by decide, by decide⟩
theorem loadImmA (imm : Word) : Statement (.loadImmA imm) := ⟨rfl, Nat.le_of_ble_eq_true rfl, Nat.le_of_ble_eq_true rfl⟩
theorem loadImmB (imm : Word) : Statement (.loadImmB imm) := ⟨rfl, Nat.le_of_ble_eq_true rfl, Nat.le_of_ble_eq_true rfl⟩
theorem loadImmX (imm : Word) : Statement (.loadImmX imm) := ⟨rfl, Nat.le_of_ble_eq_true rfl, Nat.le_of_ble_eq_true rfl⟩
theorem addAImmediate (imm : Word) : Statement (.addAImmediate imm) := ⟨rfl, Nat.le_of_ble_eq_true rfl, Nat.le_of_ble_eq_true rfl⟩
theorem addBImmediate (imm : Word) : Statement (.addBImmediate imm) := ⟨rfl, Nat.le_of_ble_eq_true rfl, Nat.le_of_ble_eq_true rfl⟩
theorem addXImmediate (imm : Word) : Statement (.addXImmediate imm) := ⟨rfl, Nat.le_of_ble_eq_true rfl, Nat.le_of_ble_eq_true rfl⟩
theorem subAImmediate (imm : Word) : Statement (.subAImmediate imm) := ⟨rfl, Nat.le_of_ble_eq_true rfl, Nat.le_of_ble_eq_true rfl⟩
theorem subBImmediate (imm : Word) : Statement (.subBImmediate imm) := ⟨rfl, Nat.le_of_ble_eq_true rfl, Nat.le_of_ble_eq_true rfl⟩
theorem subXImmediate (imm : Word) : Statement (.subXImmediate imm) := ⟨rfl, Nat.le_of_ble_eq_true rfl, Nat.le_of_ble_eq_true rfl⟩
theorem loadAbsA (addr : Word) : Statement (.loadAbsA addr) := ⟨rfl, Nat.le_of_ble_eq_true rfl, Nat.le_of_ble_eq_true rfl⟩
theorem loadAbsB (addr : Word) : Statement (.loadAbsB addr) := ⟨rfl, Nat.le_of_ble_eq_true rfl, Nat.le_of_ble_eq_true rfl⟩
theorem loadAbsX (addr : Word) : Statement (.loadAbsX addr) := ⟨rfl, Nat.le_of_ble_eq_true rfl, Nat.le_of_ble_eq_true rfl⟩
theorem addAAbsolute (addr : Word) : Statement (.addAAbsolute addr) := ⟨rfl, Nat.le_of_ble_eq_true rfl, Nat.le_of_ble_eq_true rfl⟩
theorem addBAbsolute (addr : Word) : Statement (.addBAbsolute addr) := ⟨rfl, Nat.le_of_ble_eq_true rfl, Nat.le_of_ble_eq_true rfl⟩
theorem addXAbsolute (addr : Word) : Statement (.addXAbsolute addr) := ⟨rfl, Nat.le_of_ble_eq_true rfl, Nat.le_of_ble_eq_true rfl⟩
theorem subAAbsolute (addr : Word) : Statement (.subAAbsolute addr) := ⟨rfl, Nat.le_of_ble_eq_true rfl, Nat.le_of_ble_eq_true rfl⟩
theorem subBAbsolute (addr : Word) : Statement (.subBAbsolute addr) := ⟨rfl, Nat.le_of_ble_eq_true rfl, Nat.le_of_ble_eq_true rfl⟩
theorem subXAbsolute (addr : Word) : Statement (.subXAbsolute addr) := ⟨rfl, Nat.le_of_ble_eq_true rfl, Nat.le_of_ble_eq_true rfl⟩
theorem pushA : Statement .pushA := ⟨rfl, by decide, by decide⟩
theorem pushB : Statement .pushB := ⟨rfl, by decide, by decide⟩
theorem pushX : Statement .pushX := ⟨rfl, by decide, by decide⟩
theorem popA : Statement .popA := ⟨rfl, by decide, by decide⟩
theorem popB : Statement .popB := ⟨rfl, by decide, by decide⟩
theorem popX : Statement .popX := ⟨rfl, by decide, by decide⟩
theorem call (target : Word) : Statement (.call target) := ⟨rfl, Nat.le_of_ble_eq_true rfl, Nat.le_of_ble_eq_true rfl⟩
theorem ret : Statement .ret := ⟨rfl, by decide, by decide⟩
theorem jump (target : Word) : Statement (.jump target) := ⟨rfl, Nat.le_of_ble_eq_true rfl, Nat.le_of_ble_eq_true rfl⟩
theorem jumpIfZero (target : Word) : Statement (.jumpIfZero target) := ⟨rfl, Nat.le_of_ble_eq_true rfl, Nat.le_of_ble_eq_true rfl⟩
theorem jumpIfNotZero (target : Word) : Statement (.jumpIfNotZero target) := ⟨rfl, Nat.le_of_ble_eq_true rfl, Nat.le_of_ble_eq_true rfl⟩
theorem jumpIfCarry (target : Word) : Statement (.jumpIfCarry target) := ⟨rfl, Nat.le_of_ble_eq_true rfl, Nat.le_of_ble_eq_true rfl⟩
theorem jumpIfNotCarry (target : Word) : Statement (.jumpIfNotCarry target) := ⟨rfl, Nat.le_of_ble_eq_true rfl, Nat.le_of_ble_eq_true rfl⟩
theorem jumpIfNegative (target : Word) : Statement (.jumpIfNegative target) := ⟨rfl, Nat.le_of_ble_eq_true rfl, Nat.le_of_ble_eq_true rfl⟩
theorem jumpIfNotNegative (target : Word) : Statement (.jumpIfNotNegative target) := ⟨rfl, Nat.le_of_ble_eq_true rfl, Nat.le_of_ble_eq_true rfl⟩
theorem jumpIfError (target : Word) : Statement (.jumpIfError target) := ⟨rfl, Nat.le_of_ble_eq_true rfl, Nat.le_of_ble_eq_true rfl⟩
theorem jumpIfNotError (target : Word) : Statement (.jumpIfNotError target) := ⟨rfl, Nat.le_of_ble_eq_true rfl, Nat.le_of_ble_eq_true rfl⟩
theorem jumpIfOverflow (target : Word) : Statement (.jumpIfOverflow target) := ⟨rfl, Nat.le_of_ble_eq_true rfl, Nat.le_of_ble_eq_true rfl⟩
theorem jumpIfNotOverflow (target : Word) : Statement (.jumpIfNotOverflow target) := ⟨rfl, Nat.le_of_ble_eq_true rfl, Nat.le_of_ble_eq_true rfl⟩
theorem move (src dst : MoveOperand) : Statement (.move src dst) := ⟨rfl, Nat.le_of_ble_eq_true rfl, Nat.le_of_ble_eq_true rfl⟩

end Sys2Proof.Laws.EncodingLength
end

