-- ==== Sys2Proof/Laws/Views.lean ====
section
/-! SUPPORT. What a bit of a word is after a view of it has been written (spec rule R22), said once for all six views. -/

namespace Sys2Proof.Machine

/-- Every view lies within the word. -/
theorem SubRange.low_width_le (v : SubRange) : v.low + v.width ≤ 32 := by cases v <;> decide

/-- Bit `j` of the word after a write: the bit of the written value inside the view, the old bit outside. -/
theorem SubRange.getLsbD_write (v : SubRange) (w : Word) (bits : BitVec v.width) (j : Nat) :
    (v.write w bits).getLsbD j =
      if v.low ≤ j ∧ j < v.low + v.width then bits.getLsbD (j - v.low) else w.getLsbD j := by
  have hle := v.low_width_le
  by_cases hj : j < 32
  · by_cases h1 : v.low ≤ j
    · by_cases h2 : j < v.low + v.width
      · have h3 : j - v.low < v.width := by omega
        simp [SubRange.write, hj, h1, h2, h3, Nat.not_lt.mpr h1]
      · have h3 : ¬ j - v.low < v.width := by omega
        simp [SubRange.write, hj, h2, h3, BitVec.getLsbD_of_ge bits _ (Nat.le_of_not_lt h3)]
    · simp [SubRange.write, hj, h1, Nat.lt_of_not_le h1]
  · have h2 : ¬ (v.low ≤ j ∧ j < v.low + v.width) := by omega
    rw [if_neg h2, BitVec.getLsbD_of_ge _ _ (by omega), BitVec.getLsbD_of_ge _ _ (by omega)]

/-- Bit `i` of what a view reads. -/
theorem SubRange.getLsbD_read (v : SubRange) (w : Word) (i : Nat) :
    (v.read w).getLsbD i = (decide (i < v.width) && w.getLsbD (v.low + i)) := by
  simp [SubRange.read, BitVec.getLsbD_extractLsb']

end Sys2Proof.Machine
end

