-- ==== Sys2Proof/Tests/Slice0.lean ====
section
/-! SUPPORT. Tests of the model, each about one decoding, one step or one tick. What is expected comes from the spec: the words
from rule R110, the steps from the vectors `V<n>` of spec/95_test_vectors.md, the ALU table from rule R144, the rest from the
rule a test names. The last part shows, for each statement that has hypotheses, a state and operands that meet them. -/

namespace Sys2Proof.Tests

open Sys2Proof Sys2Proof.Machine Sys2Proof.Claims

/-! ## Helpers -/

/-- Flags from the five bits in the order of listing (R30). -/
def fl (z c n e o : Nat) : Flags := ⟨z == 1, c == 1, n == 1, e == 1, o == 1⟩

/-- A machine at a boundary at `ip` whose host maps exactly the given cells; `SP` is 0xFF. -/
def machine (cells : List (Word × Word)) (ip : Word) : State :=
  { State.reset with
    params := ⟨false, 0, 0xFF, cells.map fun c => ⟨c.1.toNat, 1⟩⟩
    mem := cells.foldl (fun m c => m.writeCell c.1 c.2) []
    resetState := .run, ip := ip, busAddr := ip, sp := 0xFF }

/-- The next state of a step, where there is one. -/
def after (s : State) : Option State :=
  match step s with
  | .next t => some t
  | .fault _ => none
  | .refused _ => none

/-- The next state of some ticks, where there is one. -/
def afterTicks (ls : List Lines) (s : State) : Option State :=
  match tickLines ls s with
  | .next t => some t
  | .fault _ => none
  | .refused _ => none

/-- The registers a vector names. -/
def shown (t : State) : Word × Word × Word × Word × Word × Flags := (t.ra, t.rb, t.rx, t.sp, t.ip, t.flags)

/-! ## Decoding: a word written out for every row of R110 -/

theorem test_decode_flag_words :
    [0x00, 0x01, 0x02, 0x03, 0x04, 0x05, 0x06, 0x07, 0x08, 0x09, 0x0A].map (fun w => decode w 7 8) =
      [.nop, .setZero, .clearZero, .setCarry, .clearCarry, .setNegative, .clearNegative, .setError, .clearError,
        .setOverflow, .clearOverflow] := by decide

theorem test_decode_count_words :
    [0x10, 0x11, 0x12, 0x14, 0x15, 0x16].map (fun w => decode w 7 8) =
      [.incA, .incB, .incX, .decA, .decB, .decX] := by decide

theorem test_decode_immediate_words :
    [0x20, 0x21, 0x22, 0x24, 0x25, 0x26, 0x28, 0x29, 0x2A].map (fun w => decode w 0xFFFFFFFD 8) =
      [.loadImmA 0xFFFFFFFD, .loadImmB 0xFFFFFFFD, .loadImmX 0xFFFFFFFD, .addAImmediate 0xFFFFFFFD,
        .addBImmediate 0xFFFFFFFD, .addXImmediate 0xFFFFFFFD, .subAImmediate 0xFFFFFFFD, .subBImmediate 0xFFFFFFFD,
        .subXImmediate 0xFFFFFFFD] := by decide

theorem test_decode_absolute_words :
    [0x30, 0x31, 0x32, 0x34, 0x35, 0x36, 0x38, 0x39, 0x3A].map (fun w => decode w 0xFFFFFFF0 8) =
      [.loadAbsA 0xFFFFFFF0, .loadAbsB 0xFFFFFFF0, .loadAbsX 0xFFFFFFF0, .addAAbsolute 0xFFFFFFF0,
        .addBAbsolute 0xFFFFFFF0, .addXAbsolute 0xFFFFFFF0, .subAAbsolute 0xFFFFFFF0, .subBAbsolute 0xFFFFFFF0,
        .subXAbsolute 0xFFFFFFF0] := by decide

theorem test_decode_stack_words :
    [0x40, 0x41, 0x42, 0x44, 0x45, 0x46, 0x48, 0x49].map (fun w => decode w 0x50 8) =
      [.pushA, .pushB, .pushX, .popA, .popB, .popX, .call 0x50, .ret] := by decide

theorem test_decode_branch_words :
    [0x50, 0x51, 0x52, 0x53, 0x54, 0x55, 0x56, 0x57, 0x58, 0x59, 0x5A].map (fun w => decode w 0x30 8) =
      [.jump 0x30, .jumpIfZero 0x30, .jumpIfNotZero 0x30, .jumpIfCarry 0x30, .jumpIfNotCarry 0x30, .jumpIfNegative 0x30,
        .jumpIfNotNegative 0x30, .jumpIfError 0x30, .jumpIfNotError 0x30, .jumpIfOverflow 0x30,
        .jumpIfNotOverflow 0x30] := by decide

theorem test_decode_move_words :
    [decode 0x60 0xFFFFFFF0 0x80, decode 0x60 0x80 0xFFFFFFF2, decode 0x60 0xFFFFFFF1 0xFFFFFFF0, decode 0x60 0xFFFFFFF3 0xFFFFFFEF] =
      [.move (.reg .a) (.cell 0x80), .move (.cell 0x80) (.reg .x), .move (.reg .b) (.reg .a),
        .move (.cell 0xFFFFFFF3) (.cell 0xFFFFFFEF)] := by decide

/-- R111, R112: words that are no row's opcode, two of them with an assigned low byte. -/
theorem test_decode_unassigned_words :
    [0x0B, 0x13, 0x23, 0x43, 0x4A, 0x5B, 0x61, 0x100, 0x80000024, 0xDEADBEEF, 0xFFFFFFFF].map (fun w => decode w 1 2) =
      List.replicate 11 .nop := by decide

/-- R110: the encoder writes the words of the table. -/
theorem test_encode_words :
    [encode .clearOverflow, encode (.subXImmediate 5), encode (.call 0x50), encode (.move (.reg .b) (.cell 0x80))] =
      [[0x0A], [0x2A, 5], [0x48, 0x50], [0x60, 0xFFFFFFF1, 0x80]] := by decide

/-- A list that ends inside an instruction is rejected by the name of the instruction; an empty one has no opcode. -/
theorem test_decodeList_rejects_a_short_list :
    decodeList [0x60, 0xFFFFFFF0] = .error (.missingOperand "MOVE") ∧ decodeList [] = .error .noOpcode := ⟨rfl, rfl⟩

/-- The numbering of spec/opcode_table.json: the operand words above `nbits` are 0. -/
theorem test_decodeTableWord :
    decodeTableWord 32 0x5A = some (.jumpIfNotOverflow 0) ∧
      decodeTableWord 96 0x0000008000000000FFFFFFF000000060 = some (.move (.reg .a) (.cell 0)) := by decide

/-! ## Well-formed terms: what the one check refuses (R280) -/

theorem test_wellFormed_refuses_a_register_id_as_a_cell_source :
    [Config.regIdA, Config.regIdB, Config.regIdX].map (fun w => (Instr.move (.cell w) (.reg .a)).wellFormed) =
      [false, false, false] := by decide

theorem test_wellFormed_refuses_a_register_id_as_a_cell_destination :
    [Config.regIdA, Config.regIdB, Config.regIdX].map (fun w => (Instr.move (.reg .a) (.cell w)).wellFormed) =
      [false, false, false] := by decide

theorem test_wellFormed_takes_the_neighbours_of_the_register_ids :
    (Instr.move (.cell 0xFFFFFFEF) (.cell 0xFFFFFFF3)).wellFormed = true := by decide

/-! ## The registry and the ALU -/

/-- R303: a second row with an opcode, or with a name, that is already bound is refused. -/
theorem test_registry_refuses_duplicates :
    (match buildRegistry (registryRows ++ [⟨0x24, "FOO", 1, fun _ _ => .nop⟩]) with
      | .ok _ => none
      | .error e => some e) = some (.duplicateOpcode 0x24 "FOO") ∧
    (match buildRegistry (registryRows ++ [⟨0x70, "NOP", 1, fun _ _ => .nop⟩]) with
      | .ok _ => none
      | .error e => some e) = some (.duplicateName 0x70 "NOP") := by decide

/-- The table of R144: results with ZERO and NEGATIVE. -/
theorem test_alu_table :
    [alu .add 0x7FFFFFFF 1, alu .add 0xFFFFFFFF 1, alu .add 0x80000000 0x80000000, alu .add 0xFFFFFFFD 5, alu .sub 0 1,
      alu .sub 5 5, alu .sub 0x80000000 1, alu .sub 0 0x80000000, alu .inc 0xFFFFFFFF 9, alu .inc 0x7FFFFFFF 9,
      alu .dec 0 9, alu .dec 1 9, alu .dec 0x80000000 9] =
    [⟨0x80000000, .zeroNegative false true⟩, ⟨0, .zeroNegative true false⟩, ⟨0, .zeroNegative true false⟩,
      ⟨2, .zeroNegative false false⟩, ⟨0xFFFFFFFF, .zeroNegative false true⟩, ⟨0, .zeroNegative true false⟩,
      ⟨0x7FFFFFFF, .zeroNegative false false⟩, ⟨0x80000000, .zeroNegative false true⟩, ⟨0, .zeroNegative true false⟩,
      ⟨0x80000000, .zeroNegative false true⟩, ⟨0xFFFFFFFF, .zeroNegative false true⟩, ⟨0, .zeroNegative true false⟩,
      ⟨0x7FFFFFFF, .zeroNegative false false⟩] := by decide

/-- R143: the selector, and an undefined code of it with all flags set before (R142). -/
theorem test_alu_selector :
    ([0, 1, 2, 3, 4, 7].map AluOp.ofSelector = [.add, .sub, .inc, .dec, .other, .other]) ∧
      (({ machine [] 0 with ra := 5, flags := fl 1 1 1 1 1 }).aluReg .other .a 3).ra = 5 ∧
      (({ machine [] 0 with ra := 5, flags := fl 1 1 1 1 1 }).aluReg .other .a 3).flags = fl 0 0 0 1 0 := by decide

/-! ## One step for each instruction -/

theorem test_V1_nop :
    (after (machine [(0x10, 0x0)] 0x10)).map shown =
    some (0, 0, 0, 0xff, 0x11, fl 0 0 0 0 0) := by decide

theorem test_V5_unassigned :
    (after (machine [(0x10, 0xFFFFFFFF)] 0x10)).map shown =
    some (0, 0, 0, 0xff, 0x11, fl 0 0 0 0 0) := by decide

theorem test_V7_set_zero :
    (after (machine [(0x10, 0x1)] 0x10)).map shown =
    some (0, 0, 0, 0xff, 0x11, fl 1 0 0 0 0) := by decide

theorem test_V17_set_zero :
    (after { machine [(0x10, 0x1)] 0x10 with flags := fl 1 0 0 0 0 }).map shown =
    some (0, 0, 0, 0xff, 0x11, fl 1 0 0 0 0) := by decide

theorem test_V8_clear_zero :
    (after { machine [(0x10, 0x2)] 0x10 with flags := fl 1 1 1 1 1 }).map shown =
    some (0, 0, 0, 0xff, 0x11, fl 0 1 1 1 1) := by decide

theorem test_V9_set_carry :
    (after (machine [(0x10, 0x3)] 0x10)).map shown =
    some (0, 0, 0, 0xff, 0x11, fl 0 1 0 0 0) := by decide

theorem test_V10_clear_carry :
    (after { machine [(0x10, 0x4)] 0x10 with flags := fl 1 1 1 1 1 }).map shown =
    some (0, 0, 0, 0xff, 0x11, fl 1 0 1 1 1) := by decide

theorem test_V18_clear_carry :
    (after (machine [(0x10, 0x4)] 0x10)).map shown =
    some (0, 0, 0, 0xff, 0x11, fl 0 0 0 0 0) := by decide

theorem test_V11_set_negative :
    (after (machine [(0x10, 0x5)] 0x10)).map shown =
    some (0, 0, 0, 0xff, 0x11, fl 0 0 1 0 0) := by decide

theorem test_V12_clear_negative :
    (after { machine [(0x10, 0x6)] 0x10 with flags := fl 1 1 1 1 1 }).map shown =
    some (0, 0, 0, 0xff, 0x11, fl 1 1 0 1 1) := by decide

theorem test_V13_set_error :
    (after (machine [(0x10, 0x7)] 0x10)).map shown =
    some (0, 0, 0, 0xff, 0x11, fl 0 0 0 1 0) := by decide

theorem test_V14_clear_error :
    (after { machine [(0x10, 0x8)] 0x10 with flags := fl 1 1 1 1 1 }).map shown =
    some (0, 0, 0, 0xff, 0x11, fl 1 1 1 0 1) := by decide

theorem test_V15_set_overflow :
    (after (machine [(0x10, 0x9)] 0x10)).map shown =
    some (0, 0, 0, 0xff, 0x11, fl 0 0 0 0 1) := by decide

theorem test_V16_clear_overflow :
    (after { machine [(0x10, 0xa)] 0x10 with flags := fl 1 1 1 1 1 }).map shown =
    some (0, 0, 0, 0xff, 0x11, fl 1 1 1 1 0) := by decide

theorem test_V25_inc_a :
    (after { machine [(0x10, 0x10)] 0x10 with ra := 0xFFFFFFFF }).map shown =
    some (0x0, 0, 0, 0xff, 0x11, fl 1 0 0 0 0) := by decide

theorem test_V26_inc_a :
    (after { machine [(0x10, 0x10)] 0x10 with ra := 0x7FFFFFFF }).map shown =
    some (0x80000000, 0, 0, 0xff, 0x11, fl 0 0 1 0 0) := by decide

theorem test_V20_inc_b :
    (after { machine [(0x10, 0x11)] 0x10 with rb := 0x41 }).map shown =
    some (0, 0x42, 0, 0xff, 0x11, fl 0 0 0 0 0) := by decide

theorem test_V27_inc_b :
    (after { machine [(0x10, 0x11)] 0x10 with rb := 0x0, flags := fl 1 1 0 1 1 }).map shown =
    some (0, 0x1, 0, 0xff, 0x11, fl 0 1 0 1 1) := by decide

theorem test_V31_inc_x :
    (after { machine [(0x10, 0x12)] 0x10 with ra := 0x7, rb := 0x9, rx := 0x5 }).map shown =
    some (0x7, 0x9, 0x6, 0xff, 0x11, fl 0 0 0 0 0) := by decide

theorem test_V30_dec_a :
    (after { machine [(0x10, 0x14)] 0x10 with ra := 0x80000000, flags := fl 0 0 1 0 0 }).map shown =
    some (0x7FFFFFFF, 0, 0, 0xff, 0x11, fl 0 0 0 0 0) := by decide

theorem test_V22_dec_a :
    (after { machine [(0x10, 0x14)] 0x10 with ra := 0x3 }).map shown =
    some (0x2, 0, 0, 0xff, 0x11, fl 0 0 0 0 0) := by decide

theorem test_V23_dec_b :
    (after { machine [(0x10, 0x15)] 0x10 with rb := 0x3 }).map shown =
    some (0, 0x2, 0, 0xff, 0x11, fl 0 0 0 0 0) := by decide

theorem test_V28_dec_x :
    (after { machine [(0x10, 0x16)] 0x10 with rx := 0x1 }).map shown =
    some (0, 0, 0x0, 0xff, 0x11, fl 1 0 0 0 0) := by decide

theorem test_V29_dec_x :
    (after { machine [(0x10, 0x16)] 0x10 with rx := 0x0 }).map shown =
    some (0, 0, 0xFFFFFFFF, 0xff, 0x11, fl 0 0 1 0 0) := by decide

theorem test_V35_load_imm_a :
    (after { machine [(0x10, 0x20), (0x11, 0x0)] 0x10 with ra := 0x5 }).map shown =
    some (0x0, 0, 0, 0xff, 0x12, fl 1 0 0 0 0) := by decide

theorem test_V36_load_imm_a :
    (after { machine [(0x10, 0x20), (0x11, 0x80000000)] 0x10 with flags := fl 1 0 0 0 0 }).map shown =
    some (0x80000000, 0, 0, 0xff, 0x12, fl 0 0 0 0 0) := by decide

theorem test_V37_load_imm_b :
    (after (machine [(0x10, 0x21), (0x11, 0xFFFFFFF0)] 0x10)).map shown =
    some (0, 0xFFFFFFF0, 0, 0xff, 0x12, fl 0 0 0 0 0) := by decide

theorem test_V38_load_imm_x :
    (after { machine [(0x10, 0x22), (0x11, 0x7)] 0x10 with flags := fl 0 1 1 0 0 }).map shown =
    some (0, 0, 0x7, 0xff, 0x12, fl 0 1 1 0 0) := by decide

theorem test_V39_add_a_immediate :
    (after { machine [(0x10, 0x24), (0x11, 0x5)] 0x10 with ra := 0xFFFFFFFD }).map shown =
    some (0x2, 0, 0, 0xff, 0x12, fl 0 0 0 0 0) := by decide

theorem test_V44_add_a_immediate :
    (after { machine [(0x10, 0x24), (0x11, 0x80000000)] 0x10 with ra := 0x80000000, flags := fl 0 1 0 0 1 }).map shown =
    some (0x0, 0, 0, 0xff, 0x12, fl 1 1 0 0 1) := by decide

theorem test_V40_add_b_immediate :
    (after { machine [(0x10, 0x25), (0x11, 0x5)] 0x10 with rb := 0xFFFFFFFD }).map shown =
    some (0, 0x2, 0, 0xff, 0x12, fl 0 0 0 0 0) := by decide

theorem test_V45_add_b_immediate :
    (after { machine [(0x10, 0x25), (0x11, 0x0)] 0x10 with rb := 0x0, flags := fl 0 0 1 0 0 }).map shown =
    some (0, 0x0, 0, 0xff, 0x12, fl 1 0 0 0 0) := by decide

theorem test_V46_add_x_immediate :
    (after { machine [(0x10, 0x26), (0x11, 0xFFFFFFFF)] 0x10 with rx := 0x0 }).map shown =
    some (0, 0, 0xFFFFFFFF, 0xff, 0x12, fl 0 0 1 0 0) := by decide

theorem test_V47_sub_a_immediate :
    (after { machine [(0x10, 0x28), (0x11, 0x7)] 0x10 with ra := 0x5 }).map shown =
    some (0xFFFFFFFE, 0, 0, 0xff, 0x12, fl 0 0 1 0 0) := by decide

theorem test_V50_sub_a_immediate :
    (after { machine [(0x10, 0x28), (0x11, 0x5)] 0x10 with ra := 0x5, flags := fl 0 0 1 0 0 }).map shown =
    some (0x0, 0, 0, 0xff, 0x12, fl 1 0 0 0 0) := by decide

theorem test_V48_sub_b_immediate :
    (after { machine [(0x10, 0x29), (0x11, 0x7)] 0x10 with rb := 0x5 }).map shown =
    some (0, 0xFFFFFFFE, 0, 0xff, 0x12, fl 0 0 1 0 0) := by decide

theorem test_V49_sub_x_immediate :
    (after { machine [(0x10, 0x2a), (0x11, 0x7)] 0x10 with rx := 0x5 }).map shown =
    some (0, 0, 0xFFFFFFFE, 0xff, 0x12, fl 0 0 1 0 0) := by decide

theorem test_V55_load_abs_a :
    (after (machine [(0x20, 0x30), (0x21, 0x15), (0x15, 0x6)] 0x20)).map shown =
    some (0x6, 0, 0, 0xff, 0x22, fl 0 0 0 0 0) := by decide

theorem test_V59_load_abs_a :
    (after (machine [(0x20, 0x30), (0x21, 0x300)] 0x20)).map shown =
    some (0xFFFFFFFF, 0, 0, 0xff, 0x22, fl 0 0 0 0 0) := by decide

theorem test_V61_load_abs_b :
    (after (machine [(0x20, 0x31), (0x21, 0xFFFFFFF0), (0xFFFFFFF0, 0x77)] 0x20)).map shown =
    some (0, 0x77, 0, 0xff, 0x22, fl 0 0 0 0 0) := by decide

theorem test_V57_load_abs_x :
    (after (machine [(0x20, 0x32), (0x21, 0x15), (0x15, 0x6)] 0x20)).map shown =
    some (0, 0, 0x6, 0xff, 0x22, fl 0 0 0 0 0) := by decide

theorem test_V62_add_a_absolute :
    (after { machine [(0x20, 0x34), (0x21, 0x80), (0x80, 0x20)] 0x20 with ra := 0xa }).map shown =
    some (0x2a, 0, 0, 0xff, 0x22, fl 0 0 0 0 0) := by decide

theorem test_V66_add_a_absolute :
    (after { machine [(0x20, 0x34), (0x21, 0x80), (0x80, 0xFFFFFFFF)] 0x20 with ra := 0x1, flags := fl 0 1 0 0 0 }).map shown =
    some (0x0, 0, 0, 0xff, 0x22, fl 1 1 0 0 0) := by decide

theorem test_V63_add_b_absolute :
    (after { machine [(0x20, 0x35), (0x21, 0x80), (0x80, 0x20)] 0x20 with rb := 0xa }).map shown =
    some (0, 0x2a, 0, 0xff, 0x22, fl 0 0 0 0 0) := by decide

theorem test_V64_add_x_absolute :
    (after { machine [(0x20, 0x36), (0x21, 0x80), (0x80, 0x20)] 0x20 with rx := 0xa }).map shown =
    some (0, 0, 0x2a, 0xff, 0x22, fl 0 0 0 0 0) := by decide

theorem test_V67_sub_a_absolute :
    (after { machine [(0x20, 0x38), (0x21, 0x80), (0x80, 0x20)] 0x20 with ra := 0xa }).map shown =
    some (0xFFFFFFEA, 0, 0, 0xff, 0x22, fl 0 0 1 0 0) := by decide

theorem test_V70_sub_a_absolute :
    (after { machine [(0x20, 0x38), (0x21, 0x80), (0x80, 0x20)] 0x20 with ra := 0x20 }).map shown =
    some (0x0, 0, 0, 0xff, 0x22, fl 1 0 0 0 0) := by decide

theorem test_V68_sub_b_absolute :
    (after { machine [(0x20, 0x39), (0x21, 0x80), (0x80, 0x20)] 0x20 with rb := 0xa }).map shown =
    some (0, 0xFFFFFFEA, 0, 0xff, 0x22, fl 0 0 1 0 0) := by decide

theorem test_V69_sub_x_absolute :
    (after { machine [(0x20, 0x3a), (0x21, 0x80), (0x80, 0x20)] 0x20 with rx := 0xa }).map shown =
    some (0, 0, 0xFFFFFFEA, 0xff, 0x22, fl 0 0 1 0 0) := by decide

theorem test_V71_sub_x_absolute :
    (after { machine [(0x20, 0x3a), (0x21, 0x300)] 0x20 with rx := 0x0 }).map shown =
    some (0, 0, 0x1, 0xff, 0x22, fl 0 0 0 0 0) := by decide

theorem test_V72_push_a :
    (after { machine [(0x10, 0x40), (0xff, 0x0)] 0x10 with ra := 0x10000000 }).map
      (fun t => (t.memRead 0xff, t.sp, t.ip)) =
    some (0x10000000, 0xfe, 0x11) := by decide

theorem test_V75_push_a :
    (after { machine [(0x10, 0x40), (0x0, 0x1234)] 0x10 with ra := 0xaa, sp := 0x0 }).map
      (fun t => (t.memRead 0x0, t.sp, t.ip)) =
    some (0xaa, 0xFFFFFFFF, 0x11) := by decide

theorem test_V73_push_b :
    (after { machine [(0x10, 0x41), (0xff, 0x0)] 0x10 with rb := 0x12345678 }).map
      (fun t => (t.memRead 0xff, t.sp, t.ip)) =
    some (0x12345678, 0xfe, 0x11) := by decide

theorem test_V74_push_x :
    (after { machine [(0x10, 0x42), (0xff, 0x0)] 0x10 with rx := 0x12345678 }).map
      (fun t => (t.memRead 0xff, t.sp, t.ip)) =
    some (0x12345678, 0xfe, 0x11) := by decide

theorem test_V81_pop_a :
    (after { machine [(0x10, 0x44), (0xff, 0x0)] 0x10 with ra := 0x5, sp := 0xfe }).map shown =
    some (0x0, 0, 0, 0xff, 0x11, fl 0 0 0 0 0) := by decide

theorem test_V82_pop_a :
    (after { machine [(0x10, 0x44), (0x0, 0x99)] 0x10 with sp := 0xFFFFFFFF }).map shown =
    some (0x99, 0, 0, 0x0, 0x11, fl 0 0 0 0 0) := by decide

theorem test_V83_pop_b :
    (after { machine [(0x10, 0x45)] 0x10 with sp := 0x2ff }).map shown =
    some (0, 0xFFFFFFFF, 0, 0x300, 0x11, fl 0 0 0 0 0) := by decide

theorem test_V80_pop_x :
    (after { machine [(0x10, 0x46), (0xff, 0x10000000)] 0x10 with sp := 0xfe }).map shown =
    some (0, 0, 0x10000000, 0xff, 0x11, fl 0 0 0 0 0) := by decide

theorem test_V84_call :
    (after (machine [(0x12, 0x48), (0x13, 0x50), (0xff, 0x0)] 0x12)).map
      (fun t => (t.memRead 0xff, t.sp, t.ip)) =
    some (0x14, 0xfe, 0x50) := by decide

theorem test_V86_call :
    (after { machine [(0x12, 0x48), (0x13, 0x50)] 0x12 with sp := 0x13 }).map
      (fun t => (t.memRead 0x13, t.sp, t.ip)) =
    some (0x14, 0x12, 0x50) := by decide

theorem test_V87_return :
    (after { machine [(0x52, 0x49), (0xff, 0x14)] 0x52 with sp := 0xfe }).map shown =
    some (0, 0, 0, 0xff, 0x14, fl 0 0 0 0 0) := by decide

theorem test_V88_return :
    (after { machine [(0x52, 0x49)] 0x52 with sp := 0x2ff }).map shown =
    some (0, 0, 0, 0x300, 0xFFFFFFFF, fl 0 0 0 0 0) := by decide

theorem test_V89_jump :
    (after (machine [(0x14, 0x50), (0x15, 0x30)] 0x14)).map shown =
    some (0, 0, 0, 0xff, 0x30, fl 0 0 0 0 0) := by decide

theorem test_V92_jump :
    (after { machine [(0x14, 0x50), (0x15, 0x30)] 0x14 with flags := fl 1 1 1 1 1 }).map shown =
    some (0, 0, 0, 0xff, 0x30, fl 1 1 1 1 1) := by decide

theorem test_V93_jump_if_zero :
    (after { machine [(0x14, 0x51), (0x15, 0x30)] 0x14 with flags := fl 1 0 0 0 0 }).map shown =
    some (0, 0, 0, 0xff, 0x30, fl 1 0 0 0 0) := by decide

theorem test_V94_jump_if_zero :
    (after (machine [(0x14, 0x51), (0x15, 0x30)] 0x14)).map shown =
    some (0, 0, 0, 0xff, 0x16, fl 0 0 0 0 0) := by decide

theorem test_V95_jump_if_not_zero :
    (after { machine [(0x14, 0x52), (0x15, 0x30)] 0x14 with flags := fl 1 0 0 0 0 }).map shown =
    some (0, 0, 0, 0xff, 0x16, fl 1 0 0 0 0) := by decide

theorem test_V96_jump_if_not_zero :
    (after (machine [(0x14, 0x52), (0x15, 0x30)] 0x14)).map shown =
    some (0, 0, 0, 0xff, 0x30, fl 0 0 0 0 0) := by decide

theorem test_V97_jump_if_carry :
    (after { machine [(0x14, 0x53), (0x15, 0x30)] 0x14 with flags := fl 0 1 0 0 0 }).map shown =
    some (0, 0, 0, 0xff, 0x30, fl 0 1 0 0 0) := by decide

theorem test_V98_jump_if_carry :
    (after (machine [(0x14, 0x53), (0x15, 0x30)] 0x14)).map shown =
    some (0, 0, 0, 0xff, 0x16, fl 0 0 0 0 0) := by decide

theorem test_V99_jump_if_not_carry :
    (after { machine [(0x14, 0x54), (0x15, 0x30)] 0x14 with flags := fl 0 1 0 0 0 }).map shown =
    some (0, 0, 0, 0xff, 0x16, fl 0 1 0 0 0) := by decide

theorem test_V100_jump_if_not_carry :
    (after (machine [(0x14, 0x54), (0x15, 0x30)] 0x14)).map shown =
    some (0, 0, 0, 0xff, 0x30, fl 0 0 0 0 0) := by decide

theorem test_V101_jump_if_negative :
    (after { machine [(0x14, 0x55), (0x15, 0x30)] 0x14 with flags := fl 0 0 1 0 0 }).map shown =
    some (0, 0, 0, 0xff, 0x30, fl 0 0 1 0 0) := by decide

theorem test_V102_jump_if_negative :
    (after (machine [(0x14, 0x55), (0x15, 0x30)] 0x14)).map shown =
    some (0, 0, 0, 0xff, 0x16, fl 0 0 0 0 0) := by decide

theorem test_V103_jump_if_not_negative :
    (after { machine [(0x14, 0x56), (0x15, 0x30)] 0x14 with flags := fl 0 0 1 0 0 }).map shown =
    some (0, 0, 0, 0xff, 0x16, fl 0 0 1 0 0) := by decide

theorem test_V104_jump_if_not_negative :
    (after (machine [(0x14, 0x56), (0x15, 0x30)] 0x14)).map shown =
    some (0, 0, 0, 0xff, 0x30, fl 0 0 0 0 0) := by decide

theorem test_V105_jump_if_error :
    (after { machine [(0x14, 0x57), (0x15, 0x30)] 0x14 with flags := fl 0 0 0 1 0 }).map shown =
    some (0, 0, 0, 0xff, 0x30, fl 0 0 0 1 0) := by decide

theorem test_V106_jump_if_error :
    (after (machine [(0x14, 0x57), (0x15, 0x30)] 0x14)).map shown =
    some (0, 0, 0, 0xff, 0x16, fl 0 0 0 0 0) := by decide

theorem test_V107_jump_if_not_error :
    (after { machine [(0x14, 0x58), (0x15, 0x30)] 0x14 with flags := fl 0 0 0 1 0 }).map shown =
    some (0, 0, 0, 0xff, 0x16, fl 0 0 0 1 0) := by decide

theorem test_V108_jump_if_not_error :
    (after (machine [(0x14, 0x58), (0x15, 0x30)] 0x14)).map shown =
    some (0, 0, 0, 0xff, 0x30, fl 0 0 0 0 0) := by decide

theorem test_V109_jump_if_overflow :
    (after { machine [(0x14, 0x59), (0x15, 0x30)] 0x14 with flags := fl 0 0 0 0 1 }).map shown =
    some (0, 0, 0, 0xff, 0x30, fl 0 0 0 0 1) := by decide

theorem test_V110_jump_if_overflow :
    (after (machine [(0x14, 0x59), (0x15, 0x30)] 0x14)).map shown =
    some (0, 0, 0, 0xff, 0x16, fl 0 0 0 0 0) := by decide

theorem test_V111_jump_if_not_overflow :
    (after { machine [(0x14, 0x5a), (0x15, 0x30)] 0x14 with flags := fl 0 0 0 0 1 }).map shown =
    some (0, 0, 0, 0xff, 0x16, fl 0 0 0 0 1) := by decide

theorem test_V112_jump_if_not_overflow :
    (after (machine [(0x14, 0x5a), (0x15, 0x30)] 0x14)).map shown =
    some (0, 0, 0, 0xff, 0x30, fl 0 0 0 0 0) := by decide

theorem test_V115_move :
    (after { machine [(0x20, 0x60), (0x21, 0xFFFFFFF0), (0x22, 0x80), (0x80, 0x0)] 0x20 with ra := 0xf }).map
      (fun t => (t.memRead 0x80, t.sp, t.ip)) =
    some (0xf, 0xff, 0x23) := by decide

theorem test_V118_move :
    (after (machine [(0x20, 0x60), (0x21, 0x80), (0x22, 0x81), (0x80, 0x55), (0x81, 0x0)] 0x20)).map
      (fun t => (t.memRead 0x81, t.sp, t.ip)) =
    some (0x55, 0xff, 0x23) := rfl

/-! ## Ticks -/

/-- V115 at the cycle level: the write of a `MOVE` to a cell is presented in cycle 5 and retires at its tick (R281). -/
theorem test_move_presents_its_write_in_cycle_five :
    (afterTicks (List.replicate 5 Lines.quiet)
      { machine [(0x20, 0x60), (0x21, 0xFFFFFFF0), (0x22, 0x80), (0x80, 0)] 0x20 with ra := 0xF }).map
      (fun t => (t.busPort, t.instrState, t.memRead 0x80, t.tmp1, [t.endInstr Lines.quiet, t.endInstr ⟨false, true⟩])) =
      some (⟨0x80, 0xF, 1⟩, 5, 0, 0xF, [some 0x23, none]) := by decide

/-- R336: `rst` wins over `stall` and abandons the instruction under way. -/
theorem test_reset_wins_over_stall :
    (afterTicks [Lines.quiet, ⟨true, true⟩] { machine [(0x10, 0x40)] 0x10 with ra := 7 }).map
      (fun t => (t.ra, t.ip, t.sp, t.instrState, t.resetState)) = some (0, 0, 0xFF, 0, .rs0) := by decide

/-- R331, vectored: the start address is the word read at `BOOT_ADDR`, all ones where the host maps nothing. -/
theorem test_vectored_boot :
    (afterTicks [⟨true, false⟩, Lines.quiet, Lines.quiet] { machine [(0x40, 0x1234)] 0 with params := ⟨true, 0x40, 0xFF, [⟨0x40, 1⟩]⟩ }).map
        (fun t => (t.ip, t.busAddr, t.atBoundary)) = some (0x1234, 0x1234, true) ∧
      (afterTicks [⟨true, false⟩, Lines.quiet, Lines.quiet] { machine [] 0 with params := ⟨true, 0x40, 0xFF, []⟩ }).map
        (fun t => (t.ip, t.atBoundary)) = some (0xFFFFFFFF, true) := by decide

/-- R336 and R42: the reset registers of the reset state are its own. -/
theorem test_reset_is_a_fixed_point_of_reset : State.reset.resetRegisters = State.reset := rfl

/-- Placing an instruction where the next step fetches it, straight from reset. -/
theorem test_withFetchWord :
    (after (State.reset.withFetchWord 96 0x000000800000000500000024)).map shown =
      some (5, 0, 0, 0xFFFFFFFF, 2, fl 0 0 0 0 0) := by decide

/-- R30, R312: the flags on the diagnostic port. -/
theorem test_diagnostic_flags :
    ({ machine [] 0 with flags := fl 0 0 1 0 1 } : State).diagPort.flags = 0b10100 := by decide

/-! ## Witnesses: states and operands that meet the hypotheses of the statements -/

/-- The words of an instruction are in the cells from `IP` on, as a check that computes. -/
def holds (s : State) (i : Instr) : Bool :=
  decide (s.memRead s.ip = (encode i).getD 0 0) &&
    (decide ((encode i).length < 2) || decide (s.memRead (s.ip + 1) = (encode i).getD 1 0)) &&
    (decide ((encode i).length < 3) || decide (s.memRead (s.ip + 2) = (encode i).getD 2 0))

theorem holdsInstr_of_holds {s : State} {i : Instr} (h : holds s i = true) : s.holdsInstr i := by
  have hlen : (encode i).length ≤ 3 := by cases i <;> simp [encode]
  simp only [holds, Bool.and_eq_true, Bool.or_eq_true, decide_eq_true_eq] at h
  obtain ⟨⟨h0, h1⟩, h2⟩ := h
  intro k w hk
  have hlt : k < (encode i).length := (List.getElem?_eq_some_iff.mp hk).1
  have hget : (encode i).getD k 0 = w := by simp [List.getD, hk]
  match k with
  | 0 => simpa [← hget] using h0
  | 1 => rcases h1 with h1 | h1
         · omega
         · simpa [← hget] using h1
  | 2 => rcases h2 with h2 | h2
         · omega
         · simpa [← hget] using h2
  | k + 3 => omega

/-- A machine whose last cells of the address space hold the words of an instruction, so that they straddle the wrap (R24). -/
def holding (i : Instr) : State :=
  machine [(0xFFFFFFFF, (encode i).getD 0 0), (0, (encode i).getD 1 0), (1, (encode i).getD 2 0)] 0xFFFFFFFF

/-- The hypotheses of the cycle protocol of an instruction. -/
def readyFor (i : Instr) : Bool := (holding i).atBoundary && holds (holding i) i && (holding i).lines.isEmpty

theorem witness_protocol {i : Instr} (h : readyFor i = true) :
    (holding i).atBoundary = true ∧ (holding i).holdsInstr i ∧ (holding i).lines = [] := by
  simp only [readyFor, Bool.and_eq_true, List.isEmpty_iff] at h
  exact ⟨h.1.1, holdsInstr_of_holds h.1.2, h.2⟩

theorem test_witness_NopOnlyAdvancesIp : readyFor .nop = true ∧ ∀ d ∈ registryRows, d.opcode ≠ 0x0B := by decide

theorem test_witness_FlagInstructionsWriteOneFlag :
    ∀ f ∈ [Flag.zero, .carry, .negative, .error, .overflow], readyFor (setOf f) = true ∧ readyFor (clearOf f) = true := by
  decide

theorem test_witness_IncrementAndDecrementResults :
    ∀ r ∈ [Reg.a, .b, .x], readyFor (incOf r) = true ∧ readyFor (decOf r) = true := by decide

theorem test_witness_LoadImmediateResults :
    ∀ r ∈ [Reg.a, .b, .x], readyFor (loadImmOf 0 r) = true ∧ readyFor (loadImmOf 0xFFFFFFFF r) = true := by decide

theorem test_witness_ArithmeticImmediateResults :
    ∀ r ∈ [Reg.a, .b, .x], readyFor (addImmOf 0xFFFFFFFF r) = true ∧ readyFor (subImmOf 0x80000000 r) = true := by decide

/-- A mapped and an unmapped operand cell. -/
theorem test_witness_LoadAbsoluteResults :
    (∀ r ∈ [Reg.a, .b, .x], readyFor (loadAbsOf 0 r) = true) ∧
      Params.maps (holding (.loadAbsA 0)).params 0 = true ∧ Params.maps (holding (.loadAbsA 2)).params 2 = false := by decide

theorem test_witness_ArithmeticAbsoluteResults :
    ∀ r ∈ [Reg.a, .b, .x], readyFor (addAbsOf 0 r) = true ∧ readyFor (subAbsOf 0xFFFFFFFF r) = true := by decide

/-- A mapped and an unmapped cell at `SP`. -/
theorem test_witness_PushResults :
    (∀ r ∈ [Reg.a, .b, .x], readyFor (pushOf r) = true) ∧
      Params.maps (machine [(0xFF, 0)] 0).params (machine [(0xFF, 0)] 0).sp = true ∧
      (machine [(0xFF, 0)] 0).mem.wf = true ∧ Params.maps (machine [(0xFE, 0)] 0).params 0xFF = false := by decide

theorem test_witness_PopResults : ∀ r ∈ [Reg.a, .b, .x], readyFor (popOf r) = true := by decide

theorem test_witness_CallResults : readyFor (.call 0xFFFFFFFF) = true ∧ readyFor (.call 0) = true := by decide

theorem test_witness_ReturnResults :
    readyFor .ret = true ∧ Params.maps (holding .ret).params ((holding .ret).sp + 1) = false := by decide

theorem test_witness_JumpResults : readyFor (.jump 0xFFFFFFFF) = true := by decide

/-- Each condition with the wanted value of its flag and with the other one. -/
theorem test_witness_ConditionalJumpResults :
    ∀ f ∈ [Flag.zero, .carry, .negative, .error, .overflow],
      readyFor (jumpIfOf 0 f) = true ∧ readyFor (jumpIfNotOf 0xFFFFFFFF f) = true ∧
        (holding (jumpIfNotOf 0 f)).flags.get f = false ∧ (holding (jumpIfOf 0 f)).flags.get f ≠ true ∧
        ({ holding (jumpIfOf 0 f) with flags := fl 1 1 1 1 1 } : State).flags.get f = true := by decide

/-- All four combinations of operands, the cells next to the register ids among them. -/
theorem test_witness_MoveResults :
    ∀ i ∈ [Instr.move (.reg .a) (.reg .x), .move (.reg .b) (.cell 0xFFFFFFEF), .move (.cell 0xFFFFFFF3) (.reg .a),
        .move (.cell 0) (.cell 0xFFFFFFFF)], readyFor i = true ∧ i.wellFormed = true := by decide

theorem test_witness_MoveResults_source (s : State) :
    (∀ r, MoveOperand.reg .a = .reg r → s.ra = s.getReg r) ∧
      (∀ a, MoveOperand.cell 0xFFFFFFF3 = .cell a → s.memRead 0xFFFFFFF3 = s.memRead a) :=
  ⟨fun r h => by cases h; rfl, fun a h => by cases h; rfl⟩

theorem test_witness_DecodeOfEncodeIsTheInstruction :
    (Instr.move (.cell 0xFFFFFFEF) (.reg .b)).wellFormed = true ∧ Instr.ret.wellFormed = true := by decide

theorem test_witness_EncodeOfDecodeIsTheWords :
    (lookup 0x60).isSome = true ∧
      decodeList [0x60, 0xFFFFFFF2, 0xFFFFFFF3, 9] = .ok (.move (.reg .x) (.cell 0xFFFFFFF3), [9]) := ⟨by decide, rfl⟩

theorem test_witness_OpcodeWordTellsTheLength :
    (lookup 0x00).isSome = true ∧ (lookup 0x60).isSome = true ∧ (lookup 0x61).isSome = false := by decide

theorem test_witness_OperandWordNamesRegisterOrCell :
    isRegId 0xFFFFFFF0 = true ∧ isRegId 0xFFFFFFF2 = true ∧ isRegId 0xFFFFFFEF = false ∧ isRegId 0xFFFFFFF3 = false := by decide

theorem test_witness_RegistryBuildsIffInjective :
    (registryRows.map (·.opcode)).Nodup ∧ (registryRows.map (·.name)).Nodup ∧ buildRegistry [] = .ok [] :=
  ⟨by decide, by decide, rfl⟩

theorem test_witness_StepRunsTheDecodedInstruction :
    (holding (.call 0)).lines = [] ∧ (holding (.call 0)).atBoundary = true ∧
      decodeList [(holding (.call 0)).memRead 0xFFFFFFFF, (holding (.call 0)).memRead 0, (holding (.call 0)).memRead 1] =
        .ok (.call 0, [0]) := ⟨rfl, by decide, rfl⟩

theorem test_witness_StepRunsTheInstructionHeldAtIp :
    (Instr.move (.reg .a) (.cell 0)).wellFormed = true ∧ readyFor (.move (.reg .a) (.cell 0)) = true := by decide

theorem test_witness_UnassignedOpcodeActsAsNop :
    (∀ d ∈ registryRows, d.opcode ≠ 0x100) ∧ (machine [(0, 0x100)] 0).atBoundary = true ∧
      (machine [(0, 0x100)] 0).memRead 0 = 0x100 ∧ (machine [(0, 0x100)] 0).lines = [] := by decide

theorem test_witness_UnmappedFetchAdvancesIp :
    Params.maps (machine [(0, 0x10)] 1).params 1 = false ∧ (machine [(0, 0x10)] 1).atBoundary = true ∧
      (machine [(0, 0x10)] 1).lines = [] := by decide

/-- Flags that an instruction does not read: one it writes, one it does not. -/
theorem test_witness_FlagsMatterOnlyWhereTheTableSays :
    (.zero ∉ flagsRead .incA ∧ .zero ∈ flagsWritten .incA) ∧ (.carry ∉ flagsRead .incA ∧ .carry ∉ flagsWritten .incA) ∧
      (.carry ∉ flagsRead (.jumpIfZero 0)) := by decide

theorem test_witness_NoInstructionReadsOrWritesQp :
    (holding .nop).qp = 0 ∧ exec .nop (holding .nop) = .next ((holding .nop).commit 0) ∧ (after (holding .nop)).isSome = true :=
  ⟨rfl, rfl, by decide⟩

theorem test_witness_NoStepChangesTheParameters : step State.reset = .next { State.reset with resetState := .rs1 } := rfl

/-- Two states of one Level A state whose `IR` differ. -/
theorem test_witness_LevelAStateDecidesTheOutcome :
    (holding .incA).arch = ({ holding .incA with ir := 7 } : State).arch ∧ (holding .incA).atBoundary = true ∧
      ({ holding .incA with ir := 7 } : State).atBoundary = true ∧ (holding .incA).lines = [] := by decide

theorem test_witness_AluComputesResultAndFlags : AluOp.dec ≠ .other := by decide

theorem test_witness_ViewsWriteTheirBitsOnly : 7 < SubRange.b1.low ∧ SubRange.b1.low + SubRange.b1.width ≤ 16 := by decide

theorem test_witness_DiagnosticPortShowsTheRegisters : 5 ≤ 5 := le_refl 5

/-- The highest mapped address, and the first one after it. -/
theorem test_witness_ReadAfterWrite :
    Params.maps (machine [(0xFF, 7)] 0).params 0xFF = true ∧ (machine [(0xFF, 7)] 0).mem.wf = true ∧ (0x100 : Word) ≠ 0xFF ∧
      Params.maps (machine [(0xFF, 7)] 0).params 0x100 = false := by decide

theorem test_witness_CanonicalMemoriesWithEqualCellsAreEqual :
    Memory.wf (Memory.writeCell [] 0xFFFFFFFF 0x80000001) = true ∧
      ∀ a, (Memory.writeCell [] 0xFFFFFFFF 0x80000001).readCell a =
        Memory.readCell [(17179869180, 1), (17179869183, 0x80)] a := ⟨by decide, fun _ => rfl⟩

theorem test_witness_EveryStepKeepsMemoryCanonical :
    (machine [(0x10, 0x40), (0xFF, 0)] 0x10).mem.wf = true ∧ (after (machine [(0x10, 0x40), (0xFF, 0)] 0x10)).isSome = true := by
  decide

/-- `SP` at the next opcode word, for the first clause; the cell after a `MOVE` mapped, for the second. -/
theorem test_witness_StoreIsSeenByTheNextFetch :
    (machine [(0xFE, 0x40), (0xFF, 0)] 0xFE).sp = (machine [(0xFE, 0x40), (0xFF, 0)] 0xFE).ip + 1 ∧
      Params.maps (machine [(0xFE, 0x40), (0xFF, 0)] 0xFE).params 0xFF = true ∧
      (machine [(0xFE, 0x40), (0xFF, 0)] 0xFE).mem.wf = true ∧
      Params.maps (machine [(0, 0)] 0xFFFFFFFD).params (0xFFFFFFFD + 3) = true := by decide

/-- `SP` at the bottom of the address space, where a push wraps. -/
theorem test_witness_StackRoundTrip_and_ReturnUndoesCall :
    ({ machine [(0, 5)] 0x10 with sp := 0 } : State).mem.wf = true ∧
      Params.maps ({ machine [(0, 5)] 0x10 with sp := 0 } : State).params 0 = true := by decide

/-- A schedule with wait states before and inside an instruction of six cycles. -/
theorem test_witness_StepIsTheCompositionOfItsTicks :
    readyFor (.move (.cell 0) (.cell 1)) = true ∧
      instrCycles (holding (.move (.cell 0) (.cell 1))).fetchInstr (holding (.move (.cell 0) (.cell 1))) =
        unstalled (⟨false, true⟩ :: List.replicate 3 Lines.quiet ++ ⟨false, true⟩ :: List.replicate 3 Lines.quiet) := by decide

/-- The last cycle of an instruction, and the one before it. -/
theorem test_witness_OneCommitPerInstruction_and_BusTraceIsTheStream :
    (holding .pushA).atBoundary = true ∧ 1 < instrCycles (holding .pushA).fetchInstr (holding .pushA) ∧
      2 + 1 = instrCycles (holding .pushA).fetchInstr (holding .pushA) := by decide

/-- The three parts of the invariant: the reset sequence, a boundary, the last cycle of a `MOVE`. -/
theorem test_witness_EveryStepCompletesAndKeepsProtocol :
    State.reset.protocolInv = true ∧ (holding .nop).protocolInv = true ∧
      ({ holding .nop with instrState := 5, ir := 0x60, busRw := .write, busAddr := 7, tmp1 := 9, tmp2 := 3 } : State).protocolInv = true := by
  decide

theorem test_witness_EveryInstructionRetiresWithinSixCycles :
    (holding .nop).protocolInv = true ∧ (holding .nop).resetState = .run ∧
      ({ holding .nop with instrState := 1, ir := 0x60 } : State).protocolInv = true := by decide

theorem test_witness_NoStackRequestBeforeTheLastIsAccepted (s : State) :
    cycleTable .pushA 1 s 0 = some { stack := some (.push s.ra) } ∧ (some (StackRequest.push s.ra)) ≠ none :=
  ⟨rfl, by simp⟩

theorem test_witness_FetchCycleLatchesTheOpcode : (holding .decX).atBoundary = true := by decide

/-- A wait state and a reset tick in the middle of a `PUSH_A`. -/
theorem test_witness_ScheduledLinesAreTakenOneByOne :
    (holding .pushA).lines = [] ∧
      (afterTicks [Lines.quiet, ⟨false, true⟩, Lines.quiet, ⟨true, false⟩] (holding .pushA)).isSome = true := by decide

theorem test_witness_EndedProgramStaysEnded : (holding (.jump 0xFFFFFFFF)).ended 0xFFFFFFFF ∧ (holding (.jump 0)).lines = [] :=
  ⟨⟨by decide, rfl, by decide, by decide⟩, rfl⟩

/-- R108: an attempt that collides on both keys is reported for its opcode (log entry 19). -/
theorem test_registry_reports_the_opcode_of_a_double_collision :
    (match buildRegistry (registryRows ++ [⟨0x24, "NOP", 1, fun _ _ => .nop⟩]) with
      | .ok _ => none
      | .error e => some e) = some (.duplicateOpcode 0x24 "NOP") := by decide

/-- The commit cycle of a `NOP`; its whole run with a wait state in each cycle; and its last cycle but one before a reset. -/
theorem test_witness_EndOfInstructionIsOnePulse :
    ({ holding .nop with instrState := 1 } : State).endInstr Lines.quiet = some 0 ∧
      (afterTicks [Lines.quiet] { holding .nop with instrState := 1 }).isSome = true ∧ (holding .nop).atBoundary = true ∧
      unstalled [⟨false, true⟩, Lines.quiet, ⟨false, true⟩, Lines.quiet] = instrCycles (holding .nop).fetchInstr (holding .nop) ∧
      endTrace [⟨false, true⟩, Lines.quiet, ⟨false, true⟩, Lines.quiet] (holding .nop) = [0] ∧
      unstalled [Lines.quiet, ⟨false, true⟩] < instrCycles (holding .nop).fetchInstr (holding .nop) := by decide

end Sys2Proof.Tests
end

section
/-! PROOFS. The scope of the model: no step changes the parameters of the instantiation (R6, R7), and at an instruction
boundary the Level A state alone decides the next one (R8, R45). Both rest on one case analysis: the 55 meanings of `exec` have
13 shapes. -/

namespace Sys2Proof.Machine

/-! ## The shapes of the meanings -/

/-- What a meaning of `exec` can look like: the end of an instruction around one named operation of the state. -/
inductive ExecShape : (State → Answer) → Prop
  | nop : ExecShape (sequential 1 id)
  | flag (f : Flag) (b : Bool) : ExecShape (sequential 1 fun s => s.putFlag f b)
  | load (r : Reg) (v : Word) : ExecShape (sequential 2 fun s => s.loadReg r v)
  | loadAbsolute (r : Reg) (a : Word) : ExecShape (sequential 2 fun s => s.loadReg r (s.absolute a))
  | alu (words : Word) (op : AluOp) (r : Reg) (v : Word) : ExecShape (sequential words fun s => s.aluReg op r v)
  | aluAbsolute (op : AluOp) (r : Reg) (a : Word) : ExecShape (sequential 2 fun s => s.aluReg op r (s.absolute a))
  | push (r : Reg) : ExecShape (pushShape r)
  | pop (r : Reg) : ExecShape (popShape r)
  | call (target : Word) : ExecShape (execCall target)
  | ret : ExecShape execRet
  | jump (target : Word) : ExecShape (execJump target)
  | branch (f : Flag) (wanted : Bool) (target : Word) : ExecShape (jumpShape f wanted target)
  | move (src dst : MoveOperand) : ExecShape (execMove src dst)

/-- Every instruction has one of the shapes: the one walk through the 55 arms of `exec`. -/
theorem exec_shape (i : Instr) : ExecShape (exec i) := by
  cases i with
  | nop => exact .nop
  | setZero | clearZero | setCarry | clearCarry | setNegative | clearNegative | setError | clearError | setOverflow
  | clearOverflow => exact .flag _ _
  | loadImmA imm | loadImmB imm | loadImmX imm => exact .load _ imm
  | loadAbsA addr | loadAbsB addr | loadAbsX addr => exact .loadAbsolute _ addr
  | incA | incB | incX | decA | decB | decX => exact .alu 1 _ _ 0
  | addAImmediate imm | addBImmediate imm | addXImmediate imm | subAImmediate imm | subBImmediate imm
  | subXImmediate imm => exact .alu 2 _ _ imm
  | addAAbsolute addr | addBAbsolute addr | addXAbsolute addr | subAAbsolute addr | subBAbsolute addr
  | subXAbsolute addr => exact .aluAbsolute _ _ addr
  | pushA | pushB | pushX => exact .push _
  | popA | popB | popX => exact .pop _
  | call target => exact .call target
  | ret => exact .ret
  | jump target => exact .jump target
  | jumpIfZero target | jumpIfNotZero target | jumpIfCarry target | jumpIfNotCarry target | jumpIfNegative target
  | jumpIfNotNegative target | jumpIfError target | jumpIfNotError target | jumpIfOverflow target
  | jumpIfNotOverflow target => exact .branch _ _ target
  | move src dst => exact .move src dst

/-! ## The parameters -/

/-- A sequential instruction keeps the parameters if its effect does. -/
theorem sequential_params {words : Word} {effect : State → State} {s t : State} (h : sequential words effect s = .next t)
    (he : (effect s).params = s.params) : t.params = s.params := by
  rw [sequential_next_iff.mp h, State.commit_params, he]

/-- A meaning of any shape keeps the parameters. -/
theorem ExecShape.params {m : State → Answer} (hm : ExecShape m) {s t : State} (h : m s = .next t) :
    t.params = s.params := by
  cases hm with
  | nop => exact sequential_params h rfl
  | flag f b => exact sequential_params h (s.putFlag_params f b)
  | load r v => exact sequential_params h (s.loadReg_params r v)
  | loadAbsolute r a => exact sequential_params h (s.loadReg_params r _)
  | alu words op r v => exact sequential_params h (s.aluReg_params op r v)
  | aluAbsolute op r a => exact sequential_params h (s.aluReg_params op r _)
  | push r => exact sequential_params h (s.push_params _)
  | pop r => exact sequential_params h (s.pop.setReg_params r _)
  | call target => cases h; exact s.push_params _
  | ret => cases h; rfl
  | jump target => cases h; rfl
  | branch f wanted target => rcases jumpShape_next_iff.mp h with ⟨-, rfl⟩ | ⟨-, rfl⟩ <;> rfl
  | move src dst => exact sequential_params h (s.writeOperand_params dst _)

@[simp] theorem retire_params (s : State) (l : Lines) : (s.retire l).params = s.params := by
  obtain ⟨m, h⟩ := retire_eq s l; rw [h]

@[simp] theorem State.resetCycle_params (s : State) (d : Word) : (s.resetCycle d).params = s.params := by
  unfold State.resetCycle
  split <;> rfl

/-- A tick of any kind keeps the parameters. -/
theorem tick_params {l : Lines} {s t : State} (h : tick l s = .next t) : t.params = s.params := by
  rcases tick_cases h with ⟨-, rfl⟩ | ⟨-, rfl⟩ | ⟨-, -, rfl⟩ | ⟨-, -, -, rfl⟩ | ⟨-, -, -, row, -, rfl⟩
  case inr.inr.inr.inr =>
    obtain ⟨-, -, -, -, -, hparams, -⟩ := row.apply_frame (s.retire Lines.quiet)
    rw [hparams, retire_params]
  all_goals simp [State.fetchCycle]

/-- Settles O32: a step is a tick or a whole instruction, and neither touches the parameters. -/
theorem noStepChangesTheParameters : Obligations.NoStepChangesTheParameters := by
  intro s t h
  rcases step_cases s with ⟨l, rest, -, hs⟩ | ⟨-, -, hs⟩ | ⟨-, -, hs⟩ <;> rw [hs] at h
  · rw [tick_params h]
  · rw [(exec_shape s.fetchInstr).params h, State.latch_params]
  · exact tick_params h

/-! ## States with the same Level A state -/

/-- Two states with the same Level A state (R8) in the same instantiation; the registers of the protocol (`IR`, the scratch
cells, the counters and the bus registers) may differ. -/
structure SameLevelA (s s' : State) : Prop where
  ra : s.ra = s'.ra
  rb : s.rb = s'.rb
  rx : s.rx = s'.rx
  ip : s.ip = s'.ip
  sp : s.sp = s'.sp
  qp : s.qp = s'.qp
  flags : s.flags = s'.flags
  mem : s.mem = s'.mem
  params : s.params = s'.params

theorem sameLevelA_iff {s s' : State} : SameLevelA s s' ↔ s.params = s'.params ∧ s.arch = s'.arch := by
  constructor
  · rintro ⟨hra, hrb, hrx, hip, hsp, hqp, hflags, hmem, hparams⟩
    exact ⟨hparams, by rw [State.arch, hra, hrb, hrx, hip, hsp, hqp, hflags, hmem, State.arch]⟩
  · rintro ⟨hparams, harch⟩
    obtain ⟨hra, hrb, hrx, hip, hsp, hqp, hflags, hmem⟩ := ArchState.mk.inj harch
    exact ⟨hra, hrb, hrx, hip, hsp, hqp, hflags, hmem, hparams⟩

namespace SameLevelA

variable {s s' : State}

/-! ### What such states read -/

theorem getReg (h : SameLevelA s s') (r : Reg) : s.getReg r = s'.getReg r := by
  cases r
  · exact h.ra
  · exact h.rb
  · exact h.rx

theorem memRead (h : SameLevelA s s') (a : Word) : s.memRead a = s'.memRead a := State.memRead_congr h.mem h.params a

theorem absolute (h : SameLevelA s s') (a : Word) : s.absolute a = s'.absolute a := h.memRead a

theorem popped (h : SameLevelA s s') : s.popped = s'.popped := by rw [State.popped, State.popped, h.sp, h.memRead]

theorem readOperand (h : SameLevelA s s') (src : MoveOperand) : s.readOperand src = s'.readOperand src := by
  cases src with
  | reg r => exact h.getReg r
  | cell a => exact h.memRead a

/-- They fetch the same instruction: the fetch reads `IP` and memory only (R132). -/
theorem fetchInstr (h : SameLevelA s s') : s.fetchInstr = s'.fetchInstr := by
  simp only [State.fetchInstr, h.ip, h.memRead]

/-! ### The operations keep them so -/

theorem commit (h : SameLevelA s s') (t : Word) : SameLevelA (s.commit t) (s'.commit t) := { h with ip := rfl }

theorem settle (h : SameLevelA s s') : SameLevelA s.settle s'.settle := { h with }

theorem clearScratch (h : SameLevelA s s') : SameLevelA s.clearScratch s'.clearScratch := { h with }

theorem clearTmp1 (h : SameLevelA s s') : SameLevelA s.clearTmp1 s'.clearTmp1 := { h with }

/-- The latch of `IR` is outside the Level A state (R8, R29). -/
theorem latch (h : SameLevelA s s') : SameLevelA s.latch s'.latch := { h with }

theorem withSp (h : SameLevelA s s') (v : Word) : SameLevelA { s with sp := v } { s' with sp := v } := { h with sp := rfl }

theorem withFlags (h : SameLevelA s s') (f : Flags) : SameLevelA { s with flags := f } { s' with flags := f } :=
  { h with flags := rfl }

theorem setReg (h : SameLevelA s s') (r : Reg) (v : Word) : SameLevelA (s.setReg r v) (s'.setReg r v) := by
  cases r
  · exact { h with ra := rfl }
  · exact { h with rb := rfl }
  · exact { h with rx := rfl }

theorem memWrite (h : SameLevelA s s') (a v : Word) : SameLevelA (s.memWrite a v) (s'.memWrite a v) := by
  have hmaps : Params.maps s.params a = Params.maps s'.params a := by rw [h.params]
  rw [State.memWrite, State.memWrite, hmaps]
  split
  · exact { h with mem := by rw [h.mem] }
  · exact h

theorem push (h : SameLevelA s s') (v : Word) : SameLevelA (s.push v) (s'.push v) := by
  rw [State.push, State.push, h.sp]
  exact (h.memWrite _ v).withSp _

theorem pop (h : SameLevelA s s') : SameLevelA s.pop s'.pop := by
  rw [State.pop, State.pop, h.sp]
  exact h.withSp _

theorem putFlag (h : SameLevelA s s') (f : Flag) (b : Bool) : SameLevelA (s.putFlag f b) (s'.putFlag f b) := by
  rw [State.putFlag, State.putFlag, h.flags]
  exact h.withFlags _

theorem loadReg (h : SameLevelA s s') (r : Reg) (v : Word) : SameLevelA (s.loadReg r v) (s'.loadReg r v) := by
  rw [State.loadReg, State.loadReg, h.flags]
  exact (h.withFlags _).setReg r v

theorem aluReg (h : SameLevelA s s') (op : AluOp) (r : Reg) (v : Word) :
    SameLevelA (s.aluReg op r v) (s'.aluReg op r v) := by
  simp only [State.aluReg, h.flags, h.getReg]
  split
  · exact (h.withFlags _).setReg r _
  · exact h.withFlags _

theorem writeOperand (h : SameLevelA s s') (dst : MoveOperand) (v : Word) :
    SameLevelA (s.writeOperand dst v) (s'.writeOperand dst v) := by
  cases dst with
  | reg r => exact h.setReg r v
  | cell a => exact (h.memWrite a v).settle

end SameLevelA

/-! ## The meanings depend on the Level A state only -/

/-- A meaning that completes from every state, and takes states with the same Level A state to such states again. -/
def DependsOnLevelAOnly (m : State → Answer) : Prop :=
  ∀ s s', SameLevelA s s' → ∃ t t', m s = .next t ∧ m s' = .next t' ∧ SameLevelA t t'

/-- A sequential instruction does, if its effect keeps Level A states equal. -/
theorem sequential_dependsOnLevelAOnly {words : Word} {effect : State → State}
    (he : ∀ s s', SameLevelA s s' → SameLevelA (effect s) (effect s')) :
    DependsOnLevelAOnly (sequential words effect) := fun s s' h =>
  ⟨_, _, rfl, rfl, h.ip ▸ (he s s' h).commit _⟩

/-- A conditional jump does: it reads one flag and `IP`. -/
theorem jumpShape_dependsOnLevelAOnly (f : Flag) (wanted : Bool) (target : Word) :
    DependsOnLevelAOnly (jumpShape f wanted target) := by
  intro s s' h
  refine ⟨_, _, rfl, rfl, ?_⟩
  rw [h.flags, h.ip]
  exact h.commit _

theorem execCall_dependsOnLevelAOnly (target : Word) : DependsOnLevelAOnly (execCall target) := by
  intro s s' h
  refine ⟨_, _, rfl, rfl, ?_⟩
  rw [h.ip]
  exact (h.push _).settle.clearTmp1.commit target

theorem execRet_dependsOnLevelAOnly : DependsOnLevelAOnly execRet := by
  intro s s' h
  refine ⟨_, _, rfl, rfl, ?_⟩
  rw [h.popped]
  exact h.pop.settle.commit _

/-- A meaning of any shape does: what it reads is equal, and its operation keeps Level A states equal. -/
theorem ExecShape.dependsOnLevelAOnly {m : State → Answer} (hm : ExecShape m) : DependsOnLevelAOnly m := by
  cases hm with
  | nop => exact sequential_dependsOnLevelAOnly fun _ _ h => h
  | flag f b => exact sequential_dependsOnLevelAOnly fun _ _ h => h.putFlag f b
  | load r v => exact sequential_dependsOnLevelAOnly fun _ _ h => h.loadReg r v
  | loadAbsolute r a => exact sequential_dependsOnLevelAOnly fun _ _ h => h.absolute a ▸ h.loadReg r _
  | alu words op r v => exact sequential_dependsOnLevelAOnly fun _ _ h => h.aluReg op r v
  | aluAbsolute op r a => exact sequential_dependsOnLevelAOnly fun _ _ h => h.absolute a ▸ h.aluReg op r _
  | push r => exact sequential_dependsOnLevelAOnly fun _ _ h => h.getReg r ▸ (h.push _).settle
  | pop r => exact sequential_dependsOnLevelAOnly fun _ _ h => h.popped ▸ (h.pop.setReg r _).settle
  | call target => exact execCall_dependsOnLevelAOnly target
  | ret => exact execRet_dependsOnLevelAOnly
  | jump target => exact fun _ _ h => ⟨_, _, rfl, rfl, h.commit target⟩
  | branch f wanted target => exact jumpShape_dependsOnLevelAOnly f wanted target
  | move src dst =>
    exact sequential_dependsOnLevelAOnly fun _ _ h => h.readOperand src ▸ (h.writeOperand dst _).clearScratch

/-- A step at a boundary with no scheduled lines is one whole instruction (R8, log entry 4). -/
theorem step_of_atBoundary {s : State} (hb : s.atBoundary = true) (hl : s.lines = []) :
    step s = exec s.fetchInstr s.latch := by
  simp [step, hl, hb, runInstruction]

/-- Settles O33: both boundaries fetch the same instruction, and its meaning depends on the Level A state only. -/
theorem levelAStateDecidesTheOutcome : Obligations.LevelAStateDecidesTheOutcome := by
  intro s s' hb hb' hl hl' hparams harch
  have h : SameLevelA s s' := sameLevelA_iff.mpr ⟨hparams, harch⟩
  obtain ⟨t, t', ht, ht', htt'⟩ := (exec_shape s.fetchInstr).dependsOnLevelAOnly _ _ h.latch
  have hstep : step s = .next t := by rw [step_of_atBoundary hb hl, ht]
  have hstep' : step s' = .next t' := by rw [step_of_atBoundary hb' hl', ← h.fetchInstr, ht']
  exact ⟨t, t', hstep, hstep', (sameLevelA_iff.mp htt').2⟩

end Sys2Proof.Machine
end

section
/-! PROOFS. The invariant of the cycle level (R33, R42, R44): every tick and every whole instruction completes and keeps it
(R137), and how many cycles an instruction has left. The 55 protocols have 8 tables, and one lemma for each table says what a
cycle of it does. -/

namespace Sys2Proof.Machine

/-! ## What the invariant says -/

theorem readsAtIp_iff {s : State} :
    s.readsAtIp = true ↔ s.busAddr = s.ip ∧ s.busRw = .read ∧ s.busDataOut = 0 ∧ s.tmp1 = 0 ∧ s.tmp2 = 0 := by
  simp only [State.readsAtIp, State.linesIdle, State.scratchZero, Bool.and_eq_true, decide_eq_true_eq, and_assoc]

theorem linesIdle_iff {s : State} : s.linesIdle = true ↔ s.busRw = .read ∧ s.busDataOut = 0 := by
  simp only [State.linesIdle, Bool.and_eq_true, decide_eq_true_eq]

theorem scratchZero_iff {s : State} : s.scratchZero = true ↔ s.tmp1 = 0 ∧ s.tmp2 = 0 := by
  simp only [State.scratchZero, Bool.and_eq_true, decide_eq_true_eq]

theorem protocolInv_rs0 {s : State} (h : s.resetState = .rs0) : s.protocolInv = true ↔ s = s.resetRegisters := by
  simp only [State.protocolInv, h, Bool.and_eq_true, decide_eq_true_eq, and_iff_right_iff_imp]
  intro hs
  rw [hs, State.resetRegisters_tmp3]

theorem protocolInv_rs1 {s : State} (h : s.resetState = .rs1) :
    s.protocolInv = true ↔ s = { s.resetRegisters with busAddr := s.params.bootAddr, resetState := .rs1 } := by
  simp only [State.protocolInv, h, Bool.and_eq_true, decide_eq_true_eq, and_iff_right_iff_imp]
  intro hs
  rw [hs, State.resetRegisters_tmp3]

/-- An instruction boundary has the invariant. -/
theorem protocolInv_of_atBoundary {s : State} (h : s.atBoundary = true) : s.protocolInv = true := by
  obtain ⟨hrun, hi, -, -, -, -, -, h3⟩ := atBoundary_iff.mp h
  simp [State.protocolInv, hrun, hi, h3, h]

theorem protocolInv_fetch {s : State} (hrun : s.resetState = .run) (hi : s.instrState = 0) :
    s.protocolInv = true ↔ s.atBoundary = true := by
  refine ⟨fun h => ?_, protocolInv_of_atBoundary⟩
  simp only [State.protocolInv, hrun, hi, Bool.and_eq_true, if_true] at h
  exact h.2

theorem protocolInv_execute {s : State} (hrun : s.resetState = .run) (hi : s.instrState ≠ 0) :
    s.protocolInv = true ↔ s.tmp3 = 0 ∧ cycleShape (decode s.ir 0 0) s.instrState.toNat s = true := by
  simp only [State.protocolInv, hrun, hi, Bool.and_eq_true, decide_eq_true_eq, if_false]

/-- The state with other levels of `rst` and `stall` scheduled (log entry 4). -/
def State.withLines (s : State) (ls : List Lines) : State := { s with lines := ls }

/-- The invariant says nothing of the scheduled lines. -/
theorem protocolInv_withLines {s : State} (h : s.protocolInv = true) (ls : List Lines) :
    (s.withLines ls).protocolInv = true := by
  have hreset : (s.withLines ls).resetState = s.resetState := rfl
  rcases hr : s.resetState with _ | _ | _
  · rw [protocolInv_rs0 hr] at h
    exact (protocolInv_rs0 (hreset.trans hr)).mpr (congrArg (fun u => u.withLines ls) h)
  · rw [protocolInv_rs1 hr] at h
    exact (protocolInv_rs1 (hreset.trans hr)).mpr (congrArg (fun u => u.withLines ls) h)
  · have hshape (i : Instr) (k : Nat) : cycleShape i k (s.withLines ls) = cycleShape i k s := by cases i <;> rfl
    rw [← h]
    simp only [State.protocolInv, hreset, hr, hshape]
    rfl

/-! ## Rows -/

/-- A row that writes no line but the address, and no scratch cell: what an ALU request and a load are (R135). -/
structure CycleRow.KeepsLines (row : CycleRow) : Prop where
  tmp1 : row.tmp1 = none
  tmp2 : row.tmp2 = none
  busDataOut : row.busDataOut = none
  busRw : row.busRw = none
  stack : row.stack = none

theorem CycleRow.KeepsLines.withReg {row : CycleRow} (h : row.KeepsLines) (r : Reg) (v : Word) :
    (row.withReg r v).KeepsLines := by
  cases r <;> exact { h with }

theorem keepsLines_flags (f : Option Flags) : ({ flags := f } : CycleRow).KeepsLines := ⟨rfl, rfl, rfl, rfl, rfl⟩

theorem keepsLines_loadRow (r : Reg) (s : State) (v : Word) : (loadRow r s v).KeepsLines := (keepsLines_flags _).withReg r v

theorem keepsLines_aluRow (op : AluOp) (r : Reg) (s : State) (v : Word) : (aluRow op r s v).KeepsLines := by
  simp only [aluRow]
  split
  · exact (keepsLines_flags _).withReg r _
  · exact keepsLines_flags _

/-- A committing row leaves a boundary (R44) if it leaves the lines idle and the scratch cells 0. -/
theorem CycleRow.apply_atBoundary {row : CycleRow} {s : State} {t : Word} (hcommit : row.commit = some t)
    (hstack : row.stack = none) (hrun : s.resetState = .run) (h3 : s.tmp3 = 0) (hrw : row.busRw.getD s.busRw = .read)
    (hout : row.busDataOut.getD s.busDataOut = 0) (h1 : row.tmp1.getD s.tmp1 = 0) (h2 : row.tmp2.getD s.tmp2 = 0) :
    (row.apply s).atBoundary = true := by
  rw [atBoundary_iff, CycleRow.apply, hcommit, hstack]
  exact ⟨hrun, rfl, rfl, hrw, hout, h1, h2, h3⟩

/-- The committing row of an instruction that writes no line, from a cycle with idle lines. -/
theorem CycleRow.KeepsLines.apply_atBoundary {row : CycleRow} (h : row.KeepsLines) {s : State} (t : Word)
    (hrun : s.resetState = .run) (h3 : s.tmp3 = 0) (hidle : s.linesIdle = true) (hzero : s.scratchZero = true) :
    ({ row with commit := some t }.apply s).atBoundary = true := by
  obtain ⟨hrw, hout⟩ := linesIdle_iff.mp hidle
  obtain ⟨h1, h2⟩ := scratchZero_iff.mp hzero
  refine CycleRow.apply_atBoundary (t := t) rfl h.stack hrun h3 ?_ ?_ ?_ ?_
  · rwa [h.busRw]
  · rwa [h.busDataOut]
  · rwa [h.tmp1]
  · rwa [h.tmp2]

/-! ## The cycles an instruction has left -/

/-- Where the operand word that names the destination of a `MOVE` is, from the `IP` of cycle `k` (R281): `IP` is at the opcode
word until cycle 1, at the source word in cycle 2, and at the destination word after it. -/
def destinationAddress (ip : Word) : Nat → Word
  | 0 | 1 => ip + 2
  | 2 => ip + 1
  | _ => ip

/-- The operand word that names the destination of a `MOVE`, seen from any of its cycles. -/
def State.destinationWord (s : State) : Word := s.memRead (destinationAddress s.ip s.instrState.toNat)

/-- The un-stalled cycles of an instruction (R346), seen from any of its cycles: only for `MOVE` do they depend on an operand. -/
def protocolCycles (i : Instr) (s : State) : Nat :=
  match i with
  | .move _ _ => if isRegId s.destinationWord then 5 else 6
  | i => instrCycles i s

/-! ## The protocols by table -/

/-- A choice by a flag, and by its negation. -/
theorem ite_bool_swap {α : Type} (b : Bool) (x y : α) : (if b then x else y) = if !b then y else x := by cases b <;> rfl

/-- Which table an instruction follows: its cycle table, what holds in its cycles (that of one of the instructions with the
same table stands for all of them) and how many cycles it has. -/
inductive ProtocolShape : CycleTable → (Nat → State → Bool) → (State → Nat) → Prop
  | zeroOperand {effect : State → CycleRow} (h : ∀ s, (effect s).KeepsLines) :
    ProtocolShape (zeroOperandTable effect) (cycleShape .nop) fun _ => 2
  | immediate {effect : State → Word → CycleRow} (h : ∀ s v, (effect s v).KeepsLines) :
    ProtocolShape (immediateTable effect) (cycleShape (.loadImmA 0)) fun _ => 3
  | absolute {effect : State → Word → CycleRow} (h : ∀ s v, (effect s v).KeepsLines) :
    ProtocolShape (absoluteTable effect) (cycleShape (.loadAbsA 0)) fun _ => 4
  | push (r : Reg) : ProtocolShape (pushTable r) (cycleShape .pushA) fun _ => 3
  | pop (r : Reg) : ProtocolShape (popTable r) (cycleShape .popA) fun _ => 3
  | ret : ProtocolShape returnTable (cycleShape .ret) fun _ => 3
  | call : ProtocolShape callTable (cycleShape (.call 0)) fun _ => 4
  | branch (cond : Flags → Bool) {cycles : State → Nat} (h : ∀ s, cycles s = if cond s.flags then 3 else 2) :
    ProtocolShape (branchTable cond) (cycleShape (.jump 0)) cycles
  | move (src dst : MoveOperand) : ProtocolShape moveTable (cycleShape (.move src dst)) (protocolCycles (.move src dst))

/-- Every instruction follows one of the tables: the one walk through the 55 rows of `cycleTable`. -/
theorem protocol_shape (i : Instr) : ProtocolShape (cycleTable i) (cycleShape i) (protocolCycles i) := by
  cases i with
  | nop => exact .zeroOperand fun _ => keepsLines_flags none
  | setZero | clearZero | setCarry | clearCarry | setNegative | clearNegative | setError | clearError | setOverflow
  | clearOverflow => exact .zeroOperand fun _ => keepsLines_flags _
  | incA | incB | incX | decA | decB | decX => exact .zeroOperand fun s => keepsLines_aluRow _ _ s 0
  | loadImmA _ | loadImmB _ | loadImmX _ => exact .immediate (keepsLines_loadRow _)
  | addAImmediate _ | addBImmediate _ | addXImmediate _ | subAImmediate _ | subBImmediate _
  | subXImmediate _ => exact .immediate (keepsLines_aluRow _ _)
  | loadAbsA _ | loadAbsB _ | loadAbsX _ => exact .absolute (keepsLines_loadRow _)
  | addAAbsolute _ | addBAbsolute _ | addXAbsolute _ | subAAbsolute _ | subBAbsolute _
  | subXAbsolute _ => exact .absolute (keepsLines_aluRow _ _)
  | pushA | pushB | pushX => exact .push _
  | popA | popB | popX => exact .pop _
  | call _ => exact .call
  | ret => exact .ret
  | jump _ => exact .branch (fun _ => true) fun _ => rfl
  | jumpIfZero _ => exact .branch (fun f => f.get .zero) fun _ => rfl
  | jumpIfNotZero _ => exact .branch (fun f => !f.get .zero) fun _ => ite_bool_swap _ 2 3
  | jumpIfCarry _ => exact .branch (fun f => f.get .carry) fun _ => rfl
  | jumpIfNotCarry _ => exact .branch (fun f => !f.get .carry) fun _ => ite_bool_swap _ 2 3
  | jumpIfNegative _ => exact .branch (fun f => f.get .negative) fun _ => rfl
  | jumpIfNotNegative _ => exact .branch (fun f => !f.get .negative) fun _ => ite_bool_swap _ 2 3
  | jumpIfError _ => exact .branch (fun f => f.get .error) fun _ => rfl
  | jumpIfNotError _ => exact .branch (fun f => !f.get .error) fun _ => ite_bool_swap _ 2 3
  | jumpIfOverflow _ => exact .branch (fun f => f.get .overflow) fun _ => rfl
  | jumpIfNotOverflow _ => exact .branch (fun f => !f.get .overflow) fun _ => ite_bool_swap _ 2 3
  | move src dst => exact .move src dst

/-! ## What holds in the cycles of each table -/

theorem cycleShape_zeroOperand_iff {k : Nat} {s : State} : cycleShape .nop k s = true ↔ k = 1 ∧ s.readsAtIp = true := by
  simp only [cycleShape, Bool.and_eq_true, decide_eq_true_eq]

theorem cycleShape_immediate_iff {k : Nat} {s : State} : cycleShape (.loadImmA 0) k s = true ↔
    (k = 1 ∨ k = 2) ∧ s.readsAtIp = true := by
  simp only [cycleShape, Bool.and_eq_true, Bool.or_eq_true, decide_eq_true_eq]

theorem cycleShape_absolute_iff {k : Nat} {s : State} : cycleShape (.loadAbsA 0) k s = true ↔
    (k = 1 ∨ k = 2) ∧ s.readsAtIp = true ∨ k = 3 ∧ s.linesIdle = true ∧ s.scratchZero = true := by
  simp only [cycleShape, Bool.and_eq_true, Bool.or_eq_true, decide_eq_true_eq, and_assoc]

theorem cycleShape_push_iff {k : Nat} {s : State} : cycleShape .pushA k s = true ↔
    k = 1 ∧ s.readsAtIp = true ∨ k = 2 ∧ s.busRw = .write ∧ s.scratchZero = true := by
  simp only [cycleShape, Bool.and_eq_true, Bool.or_eq_true, decide_eq_true_eq, and_assoc]

theorem cycleShape_pop_iff {k : Nat} {s : State} : cycleShape .popA k s = true ↔
    k = 1 ∧ s.readsAtIp = true ∨ k = 2 ∧ s.linesIdle = true ∧ s.scratchZero = true := by
  simp only [cycleShape, Bool.and_eq_true, Bool.or_eq_true, decide_eq_true_eq, and_assoc]

theorem cycleShape_call_iff {k : Nat} {s : State} : cycleShape (.call 0) k s = true ↔
    (k = 1 ∨ k = 2) ∧ s.readsAtIp = true ∨ k = 3 ∧ s.busRw = .write ∧ s.tmp2 = 0 := by
  simp only [cycleShape, Bool.and_eq_true, Bool.or_eq_true, decide_eq_true_eq, and_assoc]

theorem cycleShape_move_iff {src dst : MoveOperand} {k : Nat} {s : State} : cycleShape (.move src dst) k s = true ↔
    (k = 1 ∨ k = 2) ∧ s.readsAtIp = true ∨ k = 3 ∧ s.linesIdle = true ∧ s.tmp1 = 0 ∨
      k = 4 ∧ s.linesIdle = true ∧ s.busAddr = s.ip ∨ k = 5 ∧ s.busRw = .write := by
  simp only [cycleShape, Bool.and_eq_true, Bool.or_eq_true, decide_eq_true_eq, and_assoc, or_assoc]

/-! ## What a cycle of each table does -/

/-- What an execute cycle `k` leads to: the commit at a boundary, or cycle `k + 1` of the same protocol. With fewer cycles behind
it than the instruction has, it commits in the last one and in no other, and the number of cycles stays as it is. -/
inductive Proceeds (shape : Nat → State → Bool) (cycles : State → Nat) (k : Nat) (s t : State) : Prop
  | commits (hb : t.atBoundary = true) (hn : k < cycles s → k + 1 = cycles s)
  | goesOn (hi : t.instrState = s.instrState + 1) (hs : shape (k + 1) t = true)
    (hn : k < cycles s → k + 1 < cycles s ∧ cycles t = cycles s)

/-- A protocol has a row for each cycle in which its shape holds, and the row leads on. -/
def RowProceeds (table : CycleTable) (shape : Nat → State → Bool) (cycles : State → Nat) : Prop :=
  ∀ (k : Nat) (s : State), s.resetState = .run → s.tmp3 = 0 → s.instrState.toNat = k → shape k s = true →
    ∃ row, table k (s.retire Lines.quiet) s.dataIn = some row ∧
      Proceeds shape cycles k s (row.apply (s.retire Lines.quiet))

/-- After the row that advances `IP`, the port reads at `IP` again (R200, cycle 1). -/
theorem readsAtIp_advanceRow {s : State} (h : s.readsAtIp = true) : ((advanceRow s).apply s).readsAtIp = true := by
  obtain ⟨-, hidle⟩ := readsAtIp_iff.mp h
  exact readsAtIp_iff.mpr ⟨rfl, hidle⟩

theorem linesIdle_of_readsAtIp {s : State} (h : s.readsAtIp = true) : s.linesIdle = true := by
  obtain ⟨-, hrw, hout, -⟩ := readsAtIp_iff.mp h
  exact linesIdle_iff.mpr ⟨hrw, hout⟩

theorem scratchZero_of_readsAtIp {s : State} (h : s.readsAtIp = true) : s.scratchZero = true := by
  obtain ⟨-, -, -, hzero⟩ := readsAtIp_iff.mp h
  exact scratchZero_iff.mpr hzero

/-- With idle lines a tick leaves the memory alone. -/
theorem retire_idle {s : State} (h : s.linesIdle = true) (l : Lines) : s.retire l = s := retire_read (linesIdle_iff.mp h).1 l

theorem zeroOperandTable_proceeds {effect : State → CycleRow} (h : ∀ s, (effect s).KeepsLines) :
    RowProceeds (zeroOperandTable effect) (cycleShape .nop) fun _ => 2 := by
  intro k s hrun h3 hk hs
  obtain ⟨rfl, hs⟩ := cycleShape_zeroOperand_iff.mp hs
  have hidle := linesIdle_of_readsAtIp hs
  rw [retire_idle hidle]
  refine ⟨_, rfl, .commits ?_ fun _ => rfl⟩
  exact (h s).apply_atBoundary _ hrun h3 hidle (scratchZero_of_readsAtIp hs)

theorem immediateTable_proceeds {effect : State → Word → CycleRow} (h : ∀ s v, (effect s v).KeepsLines) :
    RowProceeds (immediateTable effect) (cycleShape (.loadImmA 0)) fun _ => 3 := by
  intro k s hrun h3 hk hs
  obtain ⟨hk12, hs⟩ := cycleShape_immediate_iff.mp hs
  have hidle := linesIdle_of_readsAtIp hs
  rw [retire_idle hidle]
  rcases hk12 with rfl | rfl
  · refine ⟨_, rfl, .goesOn rfl ?_ fun _ => ⟨by decide, rfl⟩⟩
    exact cycleShape_immediate_iff.mpr ⟨.inr rfl, readsAtIp_advanceRow hs⟩
  · refine ⟨_, rfl, .commits ?_ fun _ => rfl⟩
    exact (h s _).apply_atBoundary _ hrun h3 hidle (scratchZero_of_readsAtIp hs)

theorem absoluteTable_proceeds {effect : State → Word → CycleRow} (h : ∀ s v, (effect s v).KeepsLines) :
    RowProceeds (absoluteTable effect) (cycleShape (.loadAbsA 0)) fun _ => 4 := by
  intro k s hrun h3 hk hs
  obtain ⟨hk12, hread⟩ | ⟨rfl, hidle, hzero⟩ := cycleShape_absolute_iff.mp hs
  · have hidle := linesIdle_of_readsAtIp hread
    have hzero := scratchZero_of_readsAtIp hread
    rw [retire_idle hidle]
    rcases hk12 with rfl | rfl
    · refine ⟨_, rfl, .goesOn rfl ?_ fun _ => ⟨by decide, rfl⟩⟩
      exact cycleShape_absolute_iff.mpr (.inl ⟨.inr rfl, readsAtIp_advanceRow hread⟩)
    · refine ⟨_, rfl, .goesOn rfl ?_ fun _ => ⟨by decide, rfl⟩⟩
      exact cycleShape_absolute_iff.mpr (.inr ⟨rfl, hidle, hzero⟩)
  · rw [retire_idle hidle]
    refine ⟨_, rfl, .commits ?_ fun _ => rfl⟩
    exact (h s _).apply_atBoundary _ hrun h3 hidle hzero

theorem pushTable_proceeds (r : Reg) : RowProceeds (pushTable r) (cycleShape .pushA) fun _ => 3 := by
  intro k s hrun h3 hk hs
  obtain ⟨rfl, hread⟩ | ⟨rfl, hrw, hzero⟩ := cycleShape_push_iff.mp hs
  · have hzero := scratchZero_of_readsAtIp hread
    rw [retire_idle (linesIdle_of_readsAtIp hread)]
    refine ⟨_, rfl, .goesOn rfl ?_ fun _ => ⟨by decide, rfl⟩⟩
    exact cycleShape_push_iff.mpr (.inr ⟨rfl, rfl, hzero⟩)
  · obtain ⟨h1, h2⟩ := scratchZero_iff.mp hzero
    rw [retire_write hrw]
    refine ⟨_, rfl, .commits ?_ fun _ => rfl⟩
    apply CycleRow.apply_atBoundary rfl rfl <;> simp [settleRow, *]

/-- The second cycle of a pop or a return settles: it may write a register beside the commit (R146, R147). -/
theorem popShape_proceeds {table : CycleTable} (h1 : ∀ s d, table 1 s d = some { stack := some .pop })
    (h2 : ∀ s d, ∃ row t, table 2 s d = some row ∧ row.commit = some t ∧ row.stack = none ∧ row.busRw = some .read ∧
      row.busDataOut = some 0 ∧ row.tmp1 = none ∧ row.tmp2 = none) :
    RowProceeds table (cycleShape .popA) fun _ => 3 := by
  intro k s hrun h3 hk hs
  obtain ⟨rfl, hread⟩ | ⟨rfl, hidle, hzero⟩ := cycleShape_pop_iff.mp hs
  · have hidle := linesIdle_of_readsAtIp hread
    have hzero := scratchZero_of_readsAtIp hread
    rw [retire_idle hidle]
    refine ⟨_, h1 _ _, .goesOn rfl ?_ fun _ => ⟨by decide, rfl⟩⟩
    exact cycleShape_pop_iff.mpr (.inr ⟨rfl, linesIdle_iff.mpr ⟨rfl, (linesIdle_iff.mp hidle).2⟩, hzero⟩)
  · obtain ⟨ht1, ht2⟩ := scratchZero_iff.mp hzero
    rw [retire_idle hidle]
    obtain ⟨row, t, hrow, hc, hstack, hrw, hout, hr1, hr2⟩ := h2 s s.dataIn
    refine ⟨row, hrow, .commits ?_ fun _ => rfl⟩
    apply CycleRow.apply_atBoundary hc hstack hrun h3 <;> simp [*]

theorem popTable_proceeds (r : Reg) : RowProceeds (popTable r) (cycleShape .popA) fun _ => 3 :=
  popShape_proceeds (fun _ _ => rfl) fun s d => ⟨_, s.ip + 1, rfl, by cases r <;> exact ⟨rfl, rfl, rfl, rfl, rfl, rfl⟩⟩

theorem returnTable_proceeds : RowProceeds returnTable (cycleShape .ret) fun _ => 3 :=
  popShape_proceeds (fun _ _ => rfl) fun _ d => ⟨_, d, rfl, rfl, rfl, rfl, rfl, rfl, rfl⟩

theorem callTable_proceeds : RowProceeds callTable (cycleShape (.call 0)) fun _ => 4 := by
  intro k s hrun h3 hk hs
  obtain ⟨hk12, hread⟩ | ⟨rfl, hrw, h2⟩ := cycleShape_call_iff.mp hs
  · rw [retire_idle (linesIdle_of_readsAtIp hread)]
    rcases hk12 with rfl | rfl
    · refine ⟨_, rfl, .goesOn rfl ?_ fun _ => ⟨by decide, rfl⟩⟩
      exact cycleShape_call_iff.mpr (.inl ⟨.inr rfl, readsAtIp_advanceRow hread⟩)
    · refine ⟨_, rfl, .goesOn rfl ?_ fun _ => ⟨by decide, rfl⟩⟩
      exact cycleShape_call_iff.mpr (.inr ⟨rfl, rfl, (scratchZero_iff.mp (scratchZero_of_readsAtIp hread)).2⟩)
  · rw [retire_write hrw]
    refine ⟨_, rfl, .commits ?_ fun _ => rfl⟩
    apply CycleRow.apply_atBoundary rfl rfl <;> simp [settleRow, *]

theorem branchTable_proceeds (cond : Flags → Bool) {cycles : State → Nat}
    (h : ∀ s, cycles s = if cond s.flags then 3 else 2) :
    RowProceeds (branchTable cond) (cycleShape (.jump 0)) cycles := by
  intro k s hrun h3 hk hs
  obtain ⟨hk12, hs⟩ := cycleShape_immediate_iff.mp hs
  obtain ⟨-, hrw, hout, h1, h2⟩ := readsAtIp_iff.mp hs
  rw [retire_read hrw]
  rcases hk12 with rfl | rfl
  · by_cases hc : cond s.flags = true
    · refine ⟨advanceRow s, by simp [branchTable, hc], .goesOn rfl ?_ fun _ => ⟨by simp [h, hc], by rw [h, h]; rfl⟩⟩
      exact cycleShape_immediate_iff.mpr ⟨.inr rfl, readsAtIp_advanceRow hs⟩
    · refine ⟨{ commit := some (s.ip + 2) }, by simp [branchTable, hc], .commits ?_ fun _ => by simp [h, hc]⟩
      exact CycleRow.apply_atBoundary rfl rfl hrun h3 hrw hout h1 h2
  · refine ⟨{ commit := some s.dataIn }, rfl, .commits ?_ fun hn => ?_⟩
    · exact CycleRow.apply_atBoundary rfl rfl hrun h3 hrw hout h1 h2
    · rw [h] at hn ⊢
      split at hn <;> simp_all

/-- The counter after the next cycle. -/
theorem toNat_instrState_succ {b : BitVec 3} {k : Nat} (h : b.toNat = k) (hk : k < 7) : (b + 1).toNat = k + 1 := by
  subst h
  bv_omega

/-- From cycle to cycle of a `MOVE` the destination word stays where it is, so the number of cycles does not change. -/
theorem protocolCycles_move_next {src dst : MoveOperand} {s t : State} {k : Nat} (hk : s.instrState.toNat = k) (h7 : k < 7)
    (hi : t.instrState = s.instrState + 1) (hm : t.mem = s.mem) (hp : t.params = s.params)
    (hip : destinationAddress t.ip (k + 1) = destinationAddress s.ip k) :
    protocolCycles (.move src dst) t = protocolCycles (.move src dst) s := by
  have hword : t.destinationWord = s.destinationWord := by
    rw [State.destinationWord, State.destinationWord, hi, toNat_instrState_succ hk h7, hk, hip, State.memRead_congr hm hp]
  simp only [protocolCycles, hword]

/-- Cycle 4 of a `MOVE` to a cell presents the write (R281). -/
theorem moveTable_writes_cell {s : State} {d : Word} (h : regOfId? d = none) :
    moveTable 4 s d = some { busAddr := some d, busDataOut := some s.tmp1, busRw := some .write } := by
  simp only [moveTable, h]

/-- Cycle 4 of a `MOVE` to a register is the last one (R281). -/
theorem moveTable_writes_reg {s : State} {d : Word} {r : Reg} (h : regOfId? d = some r) :
    moveTable 4 s d =
      some (CycleRow.withReg { tmp1 := some 0, tmp2 := some 0, commit := some (s.ip + 1) } r s.tmp1) := by
  simp only [moveTable, h]

theorem moveTable_proceeds (src dst : MoveOperand) :
    RowProceeds moveTable (cycleShape (.move src dst)) (protocolCycles (.move src dst)) := by
  intro k s hrun h3 hk hs
  have hcycles : protocolCycles (.move src dst) s = if isRegId s.destinationWord then 5 else 6 := rfl
  have hbounds : 5 ≤ protocolCycles (.move src dst) s ∧ protocolCycles (.move src dst) s ≤ 6 := by
    rw [hcycles]
    split <;> decide
  obtain ⟨hk12, hread⟩ | ⟨rfl, hidle, h1⟩ | ⟨rfl, hidle, haddr⟩ | ⟨rfl, hrw⟩ := cycleShape_move_iff.mp hs
  · have hidle := linesIdle_of_readsAtIp hread
    rw [retire_idle hidle]
    rcases hk12 with rfl | rfl
    · refine ⟨_, rfl, .goesOn rfl ?_ fun _ => ⟨by omega, ?_⟩⟩
      · exact cycleShape_move_iff.mpr (.inl ⟨.inr rfl, readsAtIp_advanceRow hread⟩)
      · exact protocolCycles_move_next hk (by decide) rfl rfl rfl (BitVec.add_assoc s.ip 1 1)
    · refine ⟨_, rfl, .goesOn rfl ?_ fun _ => ⟨by omega, ?_⟩⟩
      · exact cycleShape_move_iff.mpr (.inr (.inl ⟨rfl, hidle, (scratchZero_iff.mp (scratchZero_of_readsAtIp hread)).1⟩))
      · exact protocolCycles_move_next hk (by decide) rfl rfl rfl rfl
  · rw [retire_idle hidle]
    refine ⟨_, rfl, .goesOn rfl ?_ fun _ => ⟨by omega, ?_⟩⟩
    · exact cycleShape_move_iff.mpr (.inr (.inr (.inl ⟨rfl, hidle, rfl⟩)))
    · exact protocolCycles_move_next hk (by decide) rfl rfl rfl rfl
  · obtain ⟨hrw, hout⟩ := linesIdle_iff.mp hidle
    have hword : s.destinationWord = s.dataIn := by
      rw [dataIn_read hrw, haddr, State.destinationWord, hk]
      rfl
    rw [hword, ← regOfId?_isSome] at hcycles
    rw [retire_idle hidle]
    rcases hd : regOfId? s.dataIn with _ | r
    · refine ⟨_, moveTable_writes_cell hd, .goesOn rfl ?_ fun _ => ⟨by simp [hcycles, hd], ?_⟩⟩
      · exact cycleShape_move_iff.mpr (.inr (.inr (.inr ⟨rfl, rfl⟩)))
      · exact protocolCycles_move_next hk (by decide) rfl rfl rfl rfl
    · refine ⟨_, moveTable_writes_reg hd, .commits ?_ fun _ => by simp [hcycles, hd]⟩
      cases r <;> exact CycleRow.apply_atBoundary rfl rfl hrun h3 hrw hout rfl rfl
  · rw [retire_write hrw]
    refine ⟨_, rfl, .commits ?_ fun hn => by omega⟩
    apply CycleRow.apply_atBoundary rfl rfl <;> simp [settleRow, *]

/-- Every protocol has a row for each cycle it can be in, and the row leads on. -/
theorem ProtocolShape.proceeds {table : CycleTable} {shape : Nat → State → Bool} {cycles : State → Nat}
    (h : ProtocolShape table shape cycles) : RowProceeds table shape cycles := by
  cases h with
  | zeroOperand h => exact zeroOperandTable_proceeds h
  | immediate h => exact immediateTable_proceeds h
  | absolute h => exact absoluteTable_proceeds h
  | push r => exact pushTable_proceeds r
  | pop r => exact popTable_proceeds r
  | ret => exact returnTable_proceeds
  | call => exact callTable_proceeds
  | branch cond h => exact branchTable_proceeds cond h
  | move src dst => exact moveTable_proceeds src dst

/-- No protocol has a cycle past execute cycle 5. -/
theorem ProtocolShape.cycle_le_five {table : CycleTable} {shape : Nat → State → Bool} {cycles : State → Nat}
    (h : ProtocolShape table shape cycles) {k : Nat} {s : State} (hs : shape k s = true) : k ≤ 5 := by
  cases h with
  | zeroOperand => have := cycleShape_zeroOperand_iff.mp hs; omega
  | immediate | branch => have := cycleShape_immediate_iff.mp hs; omega
  | absolute => have := cycleShape_absolute_iff.mp hs; omega
  | push => have := cycleShape_push_iff.mp hs; omega
  | pop | ret => have := cycleShape_pop_iff.mp hs; omega
  | call => have := cycleShape_call_iff.mp hs; omega
  | move => have := cycleShape_move_iff.mp hs; omega

/-- Every instruction reads its operand words, if it has any, so it is at a read of its opcode word in cycle 1 (R72, R132). -/
theorem ProtocolShape.first_cycle {table : CycleTable} {shape : Nat → State → Bool} {cycles : State → Nat}
    (h : ProtocolShape table shape cycles) {s : State} (hs : s.readsAtIp = true) : shape 1 s = true := by
  cases h with
  | zeroOperand => exact cycleShape_zeroOperand_iff.mpr ⟨rfl, hs⟩
  | immediate | branch => exact cycleShape_immediate_iff.mpr ⟨.inl rfl, hs⟩
  | absolute => exact cycleShape_absolute_iff.mpr (.inl ⟨.inl rfl, hs⟩)
  | push => exact cycleShape_push_iff.mpr (.inl ⟨rfl, hs⟩)
  | pop | ret => exact cycleShape_pop_iff.mpr (.inl ⟨rfl, hs⟩)
  | call => exact cycleShape_call_iff.mpr (.inl ⟨.inl rfl, hs⟩)
  | move => exact cycleShape_move_iff.mpr (.inl ⟨.inl rfl, hs⟩)

/-! ## Ticks -/

/-- An un-stalled tick of the reset sequence. -/
theorem tick_quiet_reset {s : State} (hrun : s.resetState ≠ .run) :
    tick Lines.quiet s = .next ((s.retire Lines.quiet).resetCycle s.dataIn) := by
  rw [tick_quiet, if_pos hrun]

/-- An un-stalled fetch cycle. -/
theorem tick_quiet_fetch {s : State} (hrun : s.resetState = .run) (hi : s.instrState = 0) :
    tick Lines.quiet s = .next ((s.retire Lines.quiet).fetchCycle s.dataIn) := by
  rw [tick_quiet, if_neg (not_not.mpr hrun), if_pos hi]

/-- An un-stalled execute cycle that has a row. -/
theorem tick_quiet_execute {s : State} (hrun : s.resetState = .run) (hi : s.instrState ≠ 0) {row : CycleRow}
    (hrow : (s.retire Lines.quiet).currentRow s.dataIn = some row) :
    tick Lines.quiet s = .next (row.apply (s.retire Lines.quiet)) := by
  rw [tick_quiet, if_neg (not_not.mpr hrun), if_neg hi, State.executeCycle, hrow]

/-- The cycle the machine is in, where the invariant holds in an execute cycle. -/
theorem instrState_le_five {s : State} (hinv : s.protocolInv = true) (hrun : s.resetState = .run) : s.instrState.toNat ≤ 5 := by
  by_cases hi : s.instrState = 0
  · simp [hi]
  · obtain ⟨-, hs⟩ := (protocolInv_execute hrun hi).mp hinv
    exact (protocol_shape (decode s.ir 0 0)).cycle_le_five hs

/-- An un-stalled execute cycle completes and leads on in the protocol of the instruction in `IR`. -/
theorem tick_execute_proceeds {s : State} (hinv : s.protocolInv = true) (hrun : s.resetState = .run) (hi : s.instrState ≠ 0) :
    ∃ t, tick Lines.quiet s = .next t ∧ t.ir = s.ir ∧ t.resetState = .run ∧ t.tmp3 = 0 ∧
      Proceeds (cycleShape (decode s.ir 0 0)) (protocolCycles (decode s.ir 0 0)) s.instrState.toNat s t := by
  obtain ⟨h3, hs⟩ := (protocolInv_execute hrun hi).mp hinv
  obtain ⟨row, hrow, hp⟩ := (protocol_shape (decode s.ir 0 0)).proceeds _ s hrun h3 rfl hs
  obtain ⟨m, hm⟩ := retire_eq s Lines.quiet
  obtain ⟨-, hir, htmp, hreset, -⟩ := row.apply_frame (s.retire Lines.quiet)
  have hcur : (s.retire Lines.quiet).currentRow s.dataIn = some row := by
    rw [State.currentRow, retire_instrState, State.protocol, show (s.retire Lines.quiet).ir = s.ir by rw [hm]]
    exact hrow
  refine ⟨_, tick_quiet_execute hrun hi hcur, ?_, ?_, ?_, hp⟩
  · rw [hir, hm]
  · rw [hreset, hm, hrun]
  · rw [htmp, hm, h3]

/-- An un-stalled execute cycle completes and keeps the invariant. -/
theorem tick_execute_keeps {s : State} (hinv : s.protocolInv = true) (hrun : s.resetState = .run) (hi : s.instrState ≠ 0) :
    ∃ t, tick Lines.quiet s = .next t ∧ t.protocolInv = true := by
  obtain ⟨t, ht, hir, hrun', h3, hp⟩ := tick_execute_proceeds hinv hrun hi
  refine ⟨t, ht, ?_⟩
  cases hp with
  | commits hb => exact protocolInv_of_atBoundary hb
  | goesOn hi' hs =>
    have hcount : t.instrState.toNat = s.instrState.toNat + 1 := by
      rw [hi']
      exact toNat_instrState_succ rfl (by have := instrState_le_five hinv hrun; omega)
    have hne : t.instrState ≠ 0 := by
      intro h0
      simp [h0] at hcount
    exact (protocolInv_execute hrun' hne).mpr ⟨h3, by rwa [hir, hcount]⟩

/-- The fetch cycle keeps the invariant: it leads to cycle 1 of the instruction fetched (R132). -/
theorem tick_fetch_keeps {s : State} (hb : s.atBoundary = true) :
    ∃ t, tick Lines.quiet s = .next t ∧ t.protocolInv = true := by
  obtain ⟨hrun, -, ha, hrw, hout, h1, h2, h3⟩ := atBoundary_iff.mp hb
  have hi : (1 : BitVec 3) ≠ 0 := by decide
  have hread : (s.fetchCycle (s.memRead s.ip)).readsAtIp = true := readsAtIp_iff.mpr ⟨ha, hrw, hout, h1, h2⟩
  have hcycle := (protocol_shape (decode (s.memRead s.ip) 0 0)).first_cycle hread
  exact ⟨_, tick_boundary hb, (protocolInv_execute (s := s.fetchCycle (s.memRead s.ip)) hrun hi).mpr ⟨h3, hcycle⟩⟩

/-- The two cycles of the reset sequence keep the invariant: the second one ends at a boundary (R331). -/
theorem tick_reset_sequence_keeps {s : State} (hinv : s.protocolInv = true) (hrun : s.resetState ≠ .run) :
    ∃ t, tick Lines.quiet s = .next t ∧ t.protocolInv = true := by
  rcases hr : s.resetState with _ | _ | _
  · have hs := (protocolInv_rs0 hr).mp hinv
    have hrw : s.busRw = .read := by rw [hs, State.resetRegisters_busRw]
    refine ⟨_, by rw [tick_quiet_reset hrun, retire_read hrw], ?_⟩
    rw [protocolInv_rs1 (by simp [State.resetCycle, hr]), hs]
    rfl
  · have hs := (protocolInv_rs1 hr).mp hinv
    have hrw : s.busRw = .read := by rw [hs]; rfl
    refine ⟨_, by rw [tick_quiet_reset hrun, retire_read hrw], protocolInv_of_atBoundary ?_⟩
    rw [atBoundary_iff, hs]
    exact ⟨rfl, rfl, rfl, rfl, rfl, rfl, rfl, rfl⟩
  · exact absurd hr hrun

/-- Every tick completes from a state with the invariant, and keeps it. -/
theorem tick_keeps_protocolInv (l : Lines) {s : State} (hinv : s.protocolInv = true) :
    ∃ t, tick l s = .next t ∧ t.protocolInv = true := by
  obtain ⟨_ | _, _ | _⟩ := l
  · by_cases hrun : s.resetState = .run
    · by_cases hi : s.instrState = 0
      · exact tick_fetch_keeps ((protocolInv_fetch hrun hi).mp hinv)
      · exact tick_execute_keeps hinv hrun hi
    · exact tick_reset_sequence_keeps hinv hrun
  · exact ⟨s, tick_stall s, hinv⟩
  all_goals exact ⟨_, tick_rst _ s, (protocolInv_rs0 rfl).mpr rfl⟩

/-! ## Whole instructions -/

/-- A meaning of any shape completes, and from a boundary it ends at a boundary: it commits, a store settles the lines, and the
scratch cells it used are 0 again (R33, R136, R147). -/
theorem ExecShape.keeps_boundary {m : State → Answer} (hm : ExecShape m) {s : State} (hb : s.atBoundary = true) :
    ∃ t, m s = .next t ∧ t.atBoundary = true := by
  obtain ⟨hrun, -, -, hrw, hout, h1, h2, h3⟩ := atBoundary_iff.mp hb
  cases hm with
  | move src dst =>
    refine ⟨_, rfl, atBoundary_iff.mpr ?_⟩
    cases dst <;> simp [hrun, hrw, hout, h3]
  | nop | flag | load | loadAbsolute | alu | aluAbsolute | push | pop | call | ret | jump | branch =>
    exact ⟨_, rfl, atBoundary_iff.mpr (by simp [hrun, hrw, hout, h1, h2, h3])⟩

/-- Settles O47: a step is a tick, which keeps the invariant, or a whole instruction, which leads from boundary to boundary. -/
theorem everyStepCompletesAndKeepsProtocol : Obligations.EveryStepCompletesAndKeepsProtocol := by
  intro s hinv
  rcases step_cases s with ⟨l, rest, -, hs⟩ | ⟨-, hb, hs⟩ | ⟨-, -, hs⟩ <;> rw [hs]
  · exact tick_keeps_protocolInv l (protocolInv_withLines hinv rest)
  · have hlatch : s.latch.atBoundary = true := hb
    obtain ⟨t, ht, hbt⟩ := (exec_shape s.fetchInstr).keeps_boundary hlatch
    exact ⟨t, ht, protocolInv_of_atBoundary hbt⟩
  · exact tick_keeps_protocolInv Lines.quiet hinv

end Sys2Proof.Machine
end

section
/-! PROOFS. The end of an instruction at the cycle level (R36, R137, R346): from its fetch on, each un-stalled tick leaves one
cycle less, and the end-of-instruction pulse is raised in the last cycle and in no other. The number of cycles an instruction
has left is the measure of every induction over a run of ticks. -/

namespace Sys2Proof.Machine

open Sys2Proof.Claims

/-! ## The cycles left -/

/-- The opcode word of the instruction under way: the word at `IP` in its fetch cycle, and `IR` after it (R132). -/
def State.opcodeUnderway (s : State) : Word := if s.instrState = 0 then s.memRead s.ip else s.ir

/-- The un-stalled ticks until the instruction under way has committed. -/
def State.cyclesLeft (s : State) : Nat := protocolCycles (decode s.opcodeUnderway 0 0) s - s.instrState.toNat

/-- The number of cycles depends on the flags, which a branch reads, and on the destination word of a `MOVE`. -/
theorem protocolCycles_congr (i : Instr) {s t : State} (hf : t.flags = s.flags) (hd : t.destinationWord = s.destinationWord) :
    protocolCycles i t = protocolCycles i s := by
  cases i <;> simp only [protocolCycles, instrCycles, hf, hd]

/-- No instruction has fewer than two cycles, the fetch and one execute cycle (R346). -/
theorem ProtocolShape.two_le_cycles {table : CycleTable} {shape : Nat → State → Bool} {cycles : State → Nat}
    (h : ProtocolShape table shape cycles) (s : State) : 2 ≤ cycles s := by
  cases h with
  | zeroOperand | immediate | absolute | push | pop | ret | call => simp
  | branch cond h => rw [h]; split <;> decide
  | move src dst => rw [protocolCycles]; split <;> decide

/-- A `MOVE` has five cycles where its destination word is a register id, and six elsewhere (R281, R346). -/
theorem instrCycles_move_ofWord (src : MoveOperand) (w : Word) (s : State) :
    instrCycles (.move src (.ofWord w)) s = if isRegId w then 5 else 6 := by
  rw [← regOfId?_isSome, MoveOperand.ofWord]
  rcases regOfId? w with _ | r <;> rfl

/-- The cycles of an instruction by its opcode word are those of the instruction with its operands. -/
theorem protocolCycles_decode (w p : Word) (s : State) :
    protocolCycles (decode w 0 0) s = instrCycles (decode w p s.destinationWord) s := by
  have hrows : ∀ d ∈ registryRows, protocolCycles (d.build 0 0) s = instrCycles (d.build p s.destinationWord) s := by
    simp only [registryRows, flagRows, countRows, immediateRows, absoluteRows, stackRows, branchRows, moveRows,
      List.forall_mem_append, List.forall_mem_cons, protocolCycles, instrCycles_move_ofWord]
    simp [instrCycles]
  rcases hl : lookup w with _ | d
  · rw [decode_unassigned hl, decode_unassigned hl]
    rfl
  · rw [decode_assigned hl, decode_assigned hl]
    exact hrows d (lookup_some hl).1

/-- At a boundary all cycles of the instruction at `IP` are left. -/
theorem cyclesLeft_boundary {s : State} (hb : s.atBoundary = true) : s.cyclesLeft = instrCycles s.fetchInstr s := by
  obtain ⟨-, hi, -⟩ := atBoundary_iff.mp hb
  have hword : s.destinationWord = s.memRead (s.ip + 2) := by rw [State.destinationWord, hi]; rfl
  rw [State.cyclesLeft, State.opcodeUnderway, if_pos hi, hi, State.fetchInstr, ← hword, ← protocolCycles_decode]
  rfl
/-! ## One tick -/

/-- Somewhere in an instruction: the invariant holds, and the instruction has a cycle left. -/
structure Underway (s : State) : Prop where
  inv : s.protocolInv = true
  run : s.resetState = .run
  left : 0 < s.cyclesLeft

/-- The un-stalled tick from `s` to `t` ends the last cycle of an instruction: it commits, and the cycle raises the pulse. -/
structure LastCycle (s t : State) : Prop where
  left : s.cyclesLeft = 1
  boundary : t.atBoundary = true
  pulse : s.endInstr Lines.quiet = some t.ip

/-- The un-stalled tick from `s` to `t` ends a cycle that is not the last one of an instruction. -/
structure InnerCycle (s t : State) : Prop where
  left : t.cyclesLeft + 1 = s.cyclesLeft
  underway : Underway t
  count : t.instrState = s.instrState + 1
  pulse : s.endInstr Lines.quiet = none

/-- At a boundary the instruction at `IP` is under way. -/
theorem underway_boundary {s : State} (hb : s.atBoundary = true) : Underway s := by
  obtain ⟨hrun, hi, -⟩ := atBoundary_iff.mp hb
  refine ⟨protocolInv_of_atBoundary hb, hrun, ?_⟩
  have htwo := (protocol_shape (decode s.opcodeUnderway 0 0)).two_le_cycles s
  rw [State.cyclesLeft, hi]
  exact Nat.sub_pos_of_lt (Nat.lt_of_lt_of_le Nat.two_pos htwo)

/-- The fetch cycle is never the last one (R132, R346). -/
theorem innerCycle_fetch {s : State} (hb : s.atBoundary = true) : ∃ t, tick Lines.quiet s = .next t ∧ InnerCycle s t := by
  obtain ⟨hrun, hi, -⟩ := atBoundary_iff.mp hb
  obtain ⟨t, ht, hinv⟩ := tick_fetch_keeps hb
  have htwo := (protocol_shape (decode (s.memRead s.ip) 0 0)).two_le_cycles s
  obtain rfl : s.fetchCycle (s.memRead s.ip) = t := by
    rw [tick_boundary hb] at ht
    cases ht
    rfl
  have hword : (s.fetchCycle (s.memRead s.ip)).destinationWord = s.destinationWord := by
    simp only [State.destinationWord, hi]
    rfl
  have hleft : s.cyclesLeft = protocolCycles (decode (s.memRead s.ip) 0 0) s := by
    rw [State.cyclesLeft, State.opcodeUnderway, if_pos hi, hi]
    rfl
  have hleft' : (s.fetchCycle (s.memRead s.ip)).cyclesLeft = protocolCycles (decode (s.memRead s.ip) 0 0) s - 1 := by
    have hsame := protocolCycles_congr (decode (s.memRead s.ip) 0 0) (t := s.fetchCycle (s.memRead s.ip)) (s := s) rfl hword
    rw [← hsame]
    rfl
  exact ⟨_, ht, by omega, ⟨hinv, hrun, by omega⟩, by rw [hi]; rfl, endInstr_fetch hi _⟩

/-- The counter does not wrap within an instruction. -/
theorem instrState_succ_ne_zero {b : BitVec 3} (h : b.toNat ≤ 5) : b + 1 ≠ 0 := by bv_omega

/-- An execute cycle is the last one if one cycle is left, and an inner one if more are. -/
theorem lastCycle_or_innerCycle_execute {s : State} (h : Underway s) (hi : s.instrState ≠ 0) :
    ∃ t, tick Lines.quiet s = .next t ∧ (LastCycle s t ∨ InnerCycle s t) := by
  obtain ⟨hinv, hrun, hpos⟩ := h
  obtain ⟨t, ht, hir, hrun', -, hp⟩ := tick_execute_proceeds hinv hrun hi
  obtain ⟨u, hu, hinv'⟩ := tick_execute_keeps hinv hrun hi
  obtain rfl : t = u := by rw [ht] at hu; cases hu; rfl
  refine ⟨t, ht, ?_⟩
  have hfive := instrState_le_five hinv hrun
  have hsucc : (s.instrState + 1).toNat = s.instrState.toNat + 1 := toNat_instrState_succ rfl (by omega)
  have hne : s.instrState + 1 ≠ 0 := instrState_succ_ne_zero hfive
  have hleft : s.cyclesLeft = protocolCycles (decode s.ir 0 0) s - s.instrState.toNat := by
    rw [State.cyclesLeft, State.opcodeUnderway, if_neg hi]
  rcases endInstr_execute hrun hi ht with ⟨hpulse, hcount⟩ | ⟨hpulse, -, hcount⟩
  · cases hp with
    | commits hb =>
      obtain ⟨-, hcount', -⟩ := atBoundary_iff.mp hb
      exact absurd (hcount.symm.trans hcount') hne
    | goesOn _ hs hn =>
      obtain ⟨hlt, hsame⟩ := hn (by omega)
      have hleft' : t.cyclesLeft = protocolCycles (decode s.ir 0 0) s - (s.instrState.toNat + 1) := by
        rw [State.cyclesLeft, State.opcodeUnderway, hcount, if_neg hne, hir, hsame, hsucc]
      exact .inr ⟨by omega, ⟨hinv', hrun', by omega⟩, hcount, hpulse⟩
  · cases hp with
    | commits hb hn => exact .inl ⟨by have := hn (by omega); omega, hb, hpulse⟩
    | goesOn hcount' => exact absurd (hcount'.symm.trans hcount) hne

/-- An un-stalled tick inside an instruction ends its last cycle or an inner one. -/
theorem Underway.tick_cases {s : State} (h : Underway s) :
    ∃ t, tick Lines.quiet s = .next t ∧ (LastCycle s t ∨ InnerCycle s t) := by
  by_cases hi : s.instrState = 0
  · obtain ⟨t, ht, hc⟩ := innerCycle_fetch ((protocolInv_fetch h.run hi).mp h.inv)
    exact ⟨t, ht, .inr hc⟩
  · exact lastCycle_or_innerCycle_execute h hi

/-! ## Un-stalled ticks -/

/-- Fewer un-stalled ticks than cycles left stay inside the instruction, and `instr_state` counts them (R35). -/
theorem Underway.ticks_inside {s : State} (h : Underway s) {n : Nat} (hn : n < s.cyclesLeft) :
    ∃ t, ticks n s = .next t ∧ Underway t ∧ t.cyclesLeft + n = s.cyclesLeft ∧
      t.instrState = s.instrState + BitVec.ofNat 3 n := by
  induction n generalizing s with
  | zero => exact ⟨s, rfl, h, rfl, (BitVec.add_zero _).symm⟩
  | succ n ih =>
    obtain ⟨t, ht, hc⟩ := h.tick_cases
    rcases hc with hlast | hinner
    · have := hlast.left
      omega
    · have hleft := hinner.left
      obtain ⟨u, hu, hu', huleft, hucount⟩ := ih hinner.underway (by omega)
      refine ⟨u, ?_, hu', by omega, ?_⟩
      · rw [ticks, List.replicate_succ, tickLines_cons ht]
        exact hu
      · rw [hucount, hinner.count, BitVec.ofNat_add]
        bv_omega

/-- One un-stalled tick more. -/
theorem ticks_succ {n : Nat} {s t : State} (h : ticks n s = .next t) :
    ticks (n + 1) s = tick Lines.quiet t := by
  rw [ticks, List.replicate_succ', tickLines_append h, tickLines]
  cases tick Lines.quiet t <;> rfl

/-- Settles O45: in the last cycle of the instruction, and in no cycle before it, the pulse is raised. -/
theorem oneCommitPerInstruction : Obligations.OneCommitPerInstruction := by
  intro s n hb hn
  obtain ⟨-, hi, -⟩ := atBoundary_iff.mp hb
  rw [← cyclesLeft_boundary hb] at hn ⊢
  obtain ⟨t, ht, hunder, hleft, hcount⟩ := (underway_boundary hb).ticks_inside hn
  obtain ⟨u, hu, hc⟩ := hunder.tick_cases
  refine ⟨t, ht, by simp [hcount, hi], fun hinner => ?_, fun hlast => ?_⟩
  · rcases hc with hl | hin
    · have := hl.left
      omega
    · exact hin.pulse
  · rcases hc with hl | hin
    · obtain ⟨-, hui, hua, -⟩ := atBoundary_iff.mp hl.boundary
      exact ⟨u, by rw [ticks_succ ht, hu], hl.pulse, hua, hui, hl.boundary⟩
    · have := hin.left
      have := hin.underway.left
      omega

/-! ## Ticks with wait states -/

theorem unstalled_stall (ls : List Lines) : unstalled (⟨false, true⟩ :: ls) = unstalled ls := rfl

theorem unstalled_quiet (ls : List Lines) : unstalled (Lines.quiet :: ls) = unstalled ls + 1 := rfl

/-- The pulses of a run that starts with a tick. -/
theorem endTrace_cons {l : Lines} {rest : List Lines} {s t : State} (h : tick l s = .next t) :
    endTrace (l :: rest) s = (s.endInstr l).toList ++ endTrace rest t := by rw [endTrace, h]

/-- The pulses of a run cut in two. -/
theorem endTrace_append {ls ls' : List Lines} {s t : State} (h : tickLines ls s = .next t) :
    endTrace (ls ++ ls') s = endTrace ls s ++ endTrace ls' t := by
  induction ls generalizing s with
  | nil => cases h; rfl
  | cons l rest ih =>
    rw [tickLines] at h
    split at h
    · rename_i u hu
      rw [List.cons_append, endTrace_cons hu, endTrace_cons hu, ih h, List.append_assoc]
    · cases h
    · cases h

/-- A wait state raises no pulse and changes nothing (R36, R70). -/
theorem endTrace_stall (rest : List Lines) (s : State) : endTrace (⟨false, true⟩ :: rest) s = endTrace rest s := by
  rw [endTrace_cons (tick_stall s), endInstr_inactive rfl]
  rfl

/-- A level pair without a reset is a wait state or an un-stalled tick. -/
theorem lines_of_no_rst {l : Lines} (h : l.rst = false) : l = ⟨false, true⟩ ∨ l = Lines.quiet := by
  obtain ⟨_ | _, _ | _⟩ := l <;> simp_all [Lines.quiet]

/-- With fewer un-stalled ticks than cycles left, a run stays inside the instruction and raises no pulse. -/
theorem Underway.run_inside {ls : List Lines} {s : State} (h : Underway s) (hrst : ∀ l ∈ ls, l.rst = false)
    (hn : unstalled ls < s.cyclesLeft) : ∃ t, tickLines ls s = .next t ∧ endTrace ls s = [] := by
  induction ls generalizing s with
  | nil => exact ⟨s, rfl, rfl⟩
  | cons l rest ih =>
    obtain ⟨hl, hrest⟩ := List.forall_mem_cons.mp hrst
    rcases lines_of_no_rst hl with rfl | rfl
    · obtain ⟨t, ht, htrace⟩ := ih h hrest hn
      exact ⟨t, by rw [tickLines_stall, ht], by rw [endTrace_stall, htrace]⟩
    · rw [unstalled_quiet] at hn
      obtain ⟨u, hu, hlast | hinner⟩ := h.tick_cases
      · have := hlast.left
        omega
      · have := hinner.left
        obtain ⟨t, ht, htrace⟩ := ih hinner.underway hrest (by omega)
        exact ⟨t, by rw [tickLines_cons hu, ht], by rw [endTrace_cons hu, hinner.pulse, htrace]; rfl⟩

/-- Wait states alone change nothing and raise no pulse. -/
theorem run_of_unstalled_eq_zero {ls : List Lines} (s : State) (hrst : ∀ l ∈ ls, l.rst = false) (hn : unstalled ls = 0) :
    tickLines ls s = .next s ∧ endTrace ls s = [] := by
  induction ls with
  | nil => exact ⟨rfl, rfl⟩
  | cons l rest ih =>
    obtain ⟨hl, hrest⟩ := List.forall_mem_cons.mp hrst
    rcases lines_of_no_rst hl with rfl | rfl
    · rw [tickLines_stall, endTrace_stall]
      exact ih hrest hn
    · exact absurd hn (Nat.succ_ne_zero _)

/-- With as many un-stalled ticks as cycles left, a run ends at a boundary, and its one pulse carries the address of it. -/
theorem Underway.run_to_commit {ls : List Lines} {s : State} (h : Underway s) (hrst : ∀ l ∈ ls, l.rst = false)
    (hn : unstalled ls = s.cyclesLeft) :
    ∃ t, tickLines ls s = .next t ∧ t.atBoundary = true ∧ endTrace ls s = [t.ip] := by
  induction ls generalizing s with
  | nil => exact absurd hn (Nat.ne_of_lt h.left)
  | cons l rest ih =>
    obtain ⟨hl, hrest⟩ := List.forall_mem_cons.mp hrst
    rcases lines_of_no_rst hl with rfl | rfl
    · obtain ⟨t, ht, hb, htrace⟩ := ih h hrest hn
      exact ⟨t, by rw [tickLines_stall, ht], hb, by rw [endTrace_stall, htrace]⟩
    · rw [unstalled_quiet] at hn
      obtain ⟨u, hu, hlast | hinner⟩ := h.tick_cases
      · obtain ⟨hrun, htrace⟩ := run_of_unstalled_eq_zero u hrest (by have := hlast.left; omega)
        exact ⟨u, by rw [tickLines_cons hu, hrun], hlast.boundary, by rw [endTrace_cons hu, hlast.pulse, htrace]; rfl⟩
      · obtain ⟨t, ht, hb, htrace⟩ := ih hinner.underway hrest (by have := hinner.left; omega)
        exact ⟨t, by rw [tickLines_cons hu, ht], hb, by rw [endTrace_cons hu, hinner.pulse, htrace]; rfl⟩

/-- A cycle that raises the pulse is an un-stalled execute cycle, and its tick commits to the payload (R36, R136). -/
theorem commitsTo_of_endInstr {s t : State} {l : Lines} {a : Word} (ht : tick l s = .next t)
    (ha : s.endInstr l = some a) : l = Lines.quiet ∧ s.resetState = .run ∧ CommitsTo t a := by
  by_cases hl : (l.rst || l.stall) = true
  · rw [endInstr_inactive hl] at ha
    cases ha
  obtain rfl : l = Lines.quiet := by
    obtain ⟨_ | _, _ | _⟩ := l <;> simp_all [Lines.quiet]
  by_cases hcycle : s.resetState = .run ∧ s.instrState ≠ 0
  · rcases endInstr_execute hcycle.1 hcycle.2 ht with ⟨hpulse, -⟩ | ⟨hpulse, haddr, hcount⟩
    · rw [hpulse] at ha
      cases ha
    · rw [hpulse] at ha
      cases ha
      exact ⟨rfl, hcycle.1, rfl, haddr, hcount⟩
  · rw [State.endInstr, if_neg hl, if_neg hcycle] at ha
    cases ha

/-- Settles O57: a pulse commits; a run over all cycles of an instruction raises one; a run that a reset cuts off raises
none. -/
theorem endOfInstructionIsOnePulse : Obligations.EndOfInstructionIsOnePulse := by
  refine ⟨fun s t l a ht ha => commitsTo_of_endInstr ht ha, fun s ls hb hrst hn => ?_, fun s ls stall hb hrst hn => ?_⟩
  · exact (underway_boundary hb).run_to_commit hrst (by rw [hn, cyclesLeft_boundary hb])
  · rw [← cyclesLeft_boundary hb] at hn
    obtain ⟨t, ht, htrace⟩ := (underway_boundary hb).run_inside hrst hn
    have hreset := tick_rst stall t
    refine ⟨t.resetRegisters, by rw [tickLines_append ht, tickLines_cons hreset]; rfl, rfl, ?_⟩
    rw [endTrace_append ht, htrace, endTrace_cons hreset, endInstr_inactive rfl]
    rfl

/-! ## Scheduled lines -/

/-- The row of a cycle does not depend on the lines scheduled for later ticks. -/
theorem currentRow_withLines (s : State) (ls : List Lines) (d : Word) : (s.withLines ls).currentRow d = s.currentRow d := by
  have htable (i : Instr) (k : Nat) : cycleTable i k (s.withLines ls) d = cycleTable i k s d := by cases i <;> rfl
  exact htable _ _

theorem memWrite_withLines (s : State) (ls : List Lines) (a v : Word) :
    (s.withLines ls).memWrite a v = (s.memWrite a v).withLines ls := by
  by_cases h : Params.maps s.params a = true <;> simp [State.memWrite, State.withLines, h]

theorem retire_withLines (s : State) (ls : List Lines) (l : Lines) :
    (s.withLines ls).retire l = (s.retire l).withLines ls := by
  have hretiring : (s.withLines ls).retiring l = s.retiring l := rfl
  simp only [State.retire, hretiring]
  split
  · exact memWrite_withLines s ls _ _
  · rfl
  · rfl

theorem resetCycle_withLines (s : State) (ls : List Lines) (d : Word) :
    (s.withLines ls).resetCycle d = (s.resetCycle d).withLines ls := by
  have hreset : (s.withLines ls).resetState = s.resetState := rfl
  simp only [State.resetCycle, hreset]
  split <;> rfl

theorem CycleRow.apply_withLines (row : CycleRow) (s : State) (ls : List Lines) :
    row.apply (s.withLines ls) = (row.apply s).withLines ls := by
  simp only [CycleRow.apply]
  rcases row.commit with _ | t <;> rcases row.stack with _ | ⟨_⟩ | _ <;> rfl

/-- A tick neither reads nor changes the lines scheduled for later ticks. -/
theorem tick_withLines {l : Lines} {s t : State} (ls : List Lines) (h : tick l s = .next t) :
    tick l (s.withLines ls) = .next (t.withLines ls) := by
  rcases tick_cases h with ⟨hrst, rfl⟩ | ⟨rfl, rfl⟩ | ⟨rfl, hrun, rfl⟩ | ⟨rfl, hrun, hi, rfl⟩ |
    ⟨rfl, hrun, hi, row, hrow, rfl⟩
  · obtain ⟨rst, stall⟩ := l
    obtain rfl : rst = true := hrst
    exact tick_rst stall _
  · exact tick_stall _
  · refine (tick_quiet_reset (s := s.withLines ls) hrun).trans ?_
    rw [retire_withLines, resetCycle_withLines]
    rfl
  · refine (tick_quiet_fetch (s := s.withLines ls) hrun hi).trans ?_
    rw [retire_withLines]
    rfl
  · have hrow' : ((s.withLines ls).retire Lines.quiet).currentRow (s.withLines ls).dataIn = some row := by
      rw [retire_withLines, currentRow_withLines]
      exact hrow
    refine (tick_quiet_execute (s := s.withLines ls) hrun hi hrow').trans ?_
    rw [retire_withLines, CycleRow.apply_withLines]

/-- A tick keeps the scheduled lines: only a step takes them. -/
theorem tick_lines {l : Lines} {s t : State} (h : tick l s = .next t) : t.lines = s.lines := by
  have hself : tick l s = .next (t.withLines s.lines) := tick_withLines s.lines h
  have heq : t = t.withLines s.lines := Host.Outcome.next.inj (h.symm.trans hself)
  rw [heq]
  rfl

/-- A step with levels scheduled is the tick with the first of them (log entry 4). -/
theorem step_withLines_cons {l : Lines} {rest : List Lines} {s t : State} (h : tick l s = .next t) :
    step (s.withLines (l :: rest)) = .next (t.withLines rest) := by
  have htick : step (s.withLines (l :: rest)) = tick l (s.withLines rest) := rfl
  rw [htick, tick_withLines rest h]

/-- The first step of a run. -/
theorem core_run_succ {n : Nat} {s t : State} (h : step s = .next t) :
    Host.Core.run Sys2Proof.core (n + 1) s = Host.Core.run Sys2Proof.core n t := by
  have hstep : Sys2Proof.core.step s = .next t := h
  simp only [Host.Core.run, hstep]

/-- Settles O55, by induction on the schedule: each step takes the first levels and makes the tick with them. -/
theorem scheduledLinesAreTakenOneByOne : Obligations.ScheduledLinesAreTakenOneByOne := by
  intro ls
  induction ls with
  | nil =>
    intro s t hs ht
    cases ht
    have hself : s.withLines [] = s := by rw [← hs]; rfl
    exact congrArg Host.Outcome.next hself
  | cons l rest ih =>
    intro s t hs ht
    rw [tickLines] at ht
    split at ht
    · rename_i u hu
      have hul : u.lines = [] := by rw [tick_lines hu, hs]
      exact (core_run_succ (step_withLines_cons hu)).trans (ih u t hul ht)
    · cases ht
    · cases ht

end Sys2Proof.Machine
end

section
/-! PROOFS. Who reads and writes what (R21, R24, R25, R28, R31): each instruction has one row of the tables of `Safety.lean`,
and one lemma for each shape of meaning compares the meaning with the row. -/

namespace Sys2Proof.Machine

open Sys2Proof.Claims

/-! ## Footprints -/

/-- One row of the tables of who writes and reads what, with the length in words. The defaults are those of `NOP`. -/
structure Footprint where
  flagsWritten : List Flag := []
  flagsRead : List Flag := []
  regsWritten : List Reg := []
  words : Nat := 1
  nextSp : State → Word := State.sp
  transferTarget : State → Option Word := fun _ => none
  storeAddress : State → Option Word := fun _ => none

/-- The row of an instruction. -/
def Instr.footprint (i : Instr) : Footprint where
  flagsWritten := Machine.flagsWritten i
  flagsRead := Machine.flagsRead i
  regsWritten := Machine.regsWritten i
  words := (encode i).length
  nextSp := Machine.nextSp i
  transferTarget := Machine.transferTarget i
  storeAddress := Machine.storeAddress i

/-- The shapes of the meanings (compare `ExecShape`), each with the row that its instructions have. -/
inductive HasFootprint : (State → Answer) → Footprint → Prop
  | nop : HasFootprint (sequential 1 id) {}
  | flag (f : Flag) (b : Bool) : HasFootprint (sequential 1 fun s => s.putFlag f b) { flagsWritten := [f] }
  | load (r : Reg) (v : Word) :
    HasFootprint (sequential 2 fun s => s.loadReg r v) { flagsWritten := [.zero], regsWritten := [r], words := 2 }
  | loadAbsolute (r : Reg) (a : Word) :
    HasFootprint (sequential 2 fun s => s.loadReg r (s.absolute a)) { flagsWritten := [.zero], regsWritten := [r], words := 2 }
  | alu (words : Nat) {op : AluOp} (h : op ≠ .other) (r : Reg) (v : Word) :
    HasFootprint (sequential (BitVec.ofNat 32 words) fun s => s.aluReg op r v)
      { flagsWritten := [.zero, .negative], regsWritten := [r], words := words }
  | aluAbsolute {op : AluOp} (h : op ≠ .other) (r : Reg) (a : Word) :
    HasFootprint (sequential 2 fun s => s.aluReg op r (s.absolute a))
      { flagsWritten := [.zero, .negative], regsWritten := [r], words := 2 }
  | push (r : Reg) : HasFootprint (pushShape r) { nextSp := fun s => s.sp - 1, storeAddress := fun s => some s.sp }
  | pop (r : Reg) : HasFootprint (popShape r) { regsWritten := [r], nextSp := fun s => s.sp + 1 }
  | call (target : Word) : HasFootprint (execCall target)
      { words := 2, nextSp := fun s => s.sp - 1, transferTarget := fun _ => some target, storeAddress := fun s => some s.sp }
  | ret : HasFootprint execRet { nextSp := fun s => s.sp + 1, transferTarget := fun s => some (s.memRead (s.sp + 1)) }
  | jump (target : Word) : HasFootprint (execJump target) { words := 2, transferTarget := fun _ => some target }
  | branch (f : Flag) (wanted : Bool) {target : Word} {dest : State → Option Word}
    (h : ∀ s, dest s = if s.flags.get f = wanted then some target else none) :
    HasFootprint (jumpShape f wanted target) { flagsRead := [f], words := 2, transferTarget := dest }
  | moveToReg (src : MoveOperand) (r : Reg) : HasFootprint (execMove src (.reg r)) { regsWritten := [r], words := 3 }
  | moveToCell (src : MoveOperand) (a : Word) :
    HasFootprint (execMove src (.cell a)) { words := 3, storeAddress := fun _ => some a }

/-- A choice by a flag, where the flag is wanted to be 0. -/
theorem ite_flag_false {α : Type} (b : Bool) (x y : α) : (if b then x else y) = if b = false then y else x := by
  cases b <;> rfl

/-- Every instruction has the row that goes with the shape of its meaning. -/
theorem exec_hasFootprint (i : Instr) : HasFootprint (exec i) (Instr.footprint i) := by
  cases i with
  | nop => exact .nop
  | setZero | clearZero | setCarry | clearCarry | setNegative | clearNegative | setError | clearError | setOverflow
  | clearOverflow => exact .flag _ _
  | loadImmA imm | loadImmB imm | loadImmX imm => exact .load _ imm
  | loadAbsA addr | loadAbsB addr | loadAbsX addr => exact .loadAbsolute _ addr
  | incA | incB | incX | decA | decB | decX => exact .alu 1 (by decide) _ 0
  | addAImmediate imm | addBImmediate imm | addXImmediate imm | subAImmediate imm | subBImmediate imm
  | subXImmediate imm => exact .alu 2 (by decide) _ imm
  | addAAbsolute addr | addBAbsolute addr | addXAbsolute addr | subAAbsolute addr | subBAbsolute addr
  | subXAbsolute addr => exact .aluAbsolute (by decide) _ addr
  | pushA | pushB | pushX => exact .push _
  | popA | popB | popX => exact .pop _
  | call target => exact .call target
  | ret => exact .ret
  | jump target => exact .jump target
  | jumpIfZero _ | jumpIfCarry _ | jumpIfNegative _ | jumpIfError _ | jumpIfOverflow _ => exact .branch _ _ fun _ => rfl
  | jumpIfNotZero _ | jumpIfNotCarry _ | jumpIfNotNegative _ | jumpIfNotError _ | jumpIfNotOverflow _ =>
    exact .branch _ _ fun _ => ite_flag_false _ _ _
  | move src dst =>
    cases dst with
    | reg r => exact .moveToReg src r
    | cell a => exact .moveToCell src a
/-! ## What a meaning leaves unchanged -/

/-- A defined operation updates ZERO and NEGATIVE (R140). -/
theorem alu_update_defined {op : AluOp} (h : op ≠ .other) (a b : Word) :
    (alu op a b).update = .zeroNegative ((alu op a b).result == 0) (alu op a b).result.msb := by
  cases op with
  | add | sub | inc | dec => rfl
  | other => exact absurd rfl h

/-- An ALU request with a defined operation keeps every flag but ZERO and NEGATIVE (R141). -/
theorem get_aluReg_flags_other (s : State) {op : AluOp} (h : op ≠ .other) (r : Reg) (v : Word) {f : Flag}
    (hf : f ∉ [Flag.zero, Flag.negative]) : (s.aluReg op r v).flags.get f = s.flags.get f := by
  obtain ⟨hz, hn⟩ : f ≠ .zero ∧ f ≠ .negative := by simpa using hf
  rw [State.aluReg_flags, alu_update_defined h, Flags.get_apply_zeroNegative, if_neg hz, if_neg hn]

/-- A load keeps every flag but ZERO (R31). -/
theorem get_loadReg_flags_other (s : State) (r : Reg) (v : Word) {f : Flag} (hf : f ∉ [Flag.zero]) :
    (s.loadReg r v).flags.get f = s.flags.get f := by
  rw [State.loadReg_flags, Flags.get_afterLoad, if_neg (by simpa using hf)]

/-- A meaning changes only the flags of its row. -/
theorem HasFootprint.sameFlags {m : State → Answer} {fp : Footprint} (h : HasFootprint m fp) (s : State) :
    ∃ t, m s = .next t ∧ SameFlags s t fp.flagsWritten := by
  cases h with
  | flag f b => exact ⟨_, rfl, fun g hg => s.flags.get_put_other (by simpa using hg) b⟩
  | load r v => exact ⟨_, rfl, fun g hg => get_loadReg_flags_other s r v hg⟩
  | loadAbsolute r a => exact ⟨_, rfl, fun g hg => get_loadReg_flags_other s r _ hg⟩
  | alu words hop r v => exact ⟨_, rfl, fun g hg => get_aluReg_flags_other s hop r v hg⟩
  | aluAbsolute hop r a => exact ⟨_, rfl, fun g hg => get_aluReg_flags_other s hop r _ hg⟩
  | nop | push | pop | call | ret | jump | branch | moveToReg | moveToCell => exact ⟨_, rfl, fun g _ => by simp⟩

/-- Settles O26: every meaning has the shape that goes with its row of the table of R31. -/
theorem flagsChangeOnlyWhereTheTableSays : Obligations.FlagsChangeOnlyWhereTheTableSays :=
  fun i s => (exec_hasFootprint i).sameFlags s

/-- A meaning changes only the general registers of its row, and takes `SP` where its row says. -/
theorem HasFootprint.sameRegs_nextSp {m : State → Answer} {fp : Footprint} (h : HasFootprint m fp) (s : State) :
    ∃ t, m s = .next t ∧ SameRegs s t fp.regsWritten ∧ t.sp = fp.nextSp s := by
  cases h with
  | load r v => exact ⟨_, rfl, fun q hq => s.getReg_loadReg_other (by simpa using hq) v, by simp⟩
  | loadAbsolute r a => exact ⟨_, rfl, fun q hq => s.getReg_loadReg_other (by simpa using hq) _, by simp⟩
  | alu words hop r v => exact ⟨_, rfl, fun q hq => s.getReg_aluReg_other _ (by simpa using hq) v, by simp⟩
  | aluAbsolute hop r a => exact ⟨_, rfl, fun q hq => s.getReg_aluReg_other _ (by simpa using hq) _, by simp⟩
  | pop r => exact ⟨_, rfl, fun q hq => s.pop.getReg_setReg_other (by simpa using hq) _, by simp⟩
  | moveToReg src r => exact ⟨_, rfl, fun q hq => s.getReg_setReg_other (by simpa using hq) _, by simp⟩
  | nop | flag | push | call | ret | jump | branch | moveToCell => exact ⟨_, rfl, fun q _ => by simp, by simp⟩

/-- Settles O28: every meaning has the shape that goes with its registers and its move of `SP`. -/
theorem registersChangeOnlyWhereNamed : Obligations.RegistersChangeOnlyWhereNamed :=
  fun i s => (exec_hasFootprint i).sameRegs_nextSp s

/-- A meaning commits to the target of its row, or to the word after its last word. -/
theorem HasFootprint.commitsTo {m : State → Answer} {fp : Footprint} (h : HasFootprint m fp) (s : State) :
    ∃ t, m s = .next t ∧ CommitsTo t ((fp.transferTarget s).getD (s.ip + BitVec.ofNat 32 fp.words)) := by
  cases h with
  | branch f wanted hdest =>
    refine ⟨_, rfl, ?_⟩
    simp only [hdest]
    split <;> exact ⟨rfl, rfl, rfl⟩
  | nop | flag | load | loadAbsolute | alu | aluAbsolute | push | pop | call | ret | jump | moveToReg | moveToCell =>
    exact ⟨_, rfl, rfl, rfl, rfl⟩

/-- Settles O30: every meaning has the shape that goes with its target and its length. -/
theorem controlGoesToTargetOrNextWord : Obligations.ControlGoesToTargetOrNextWord :=
  fun i s => (exec_hasFootprint i).commitsTo s
/-! ## What has no influence on a meaning -/

/-- An update of a part of the state that the operations of the meanings neither read nor write, the flag updates aside: it
changes none of their answers, and it makes no difference whether it comes before or after them. -/
structure Passive (u : State → State) : Prop where
  ip : ∀ s, (u s).ip = s.ip
  sp : ∀ s, (u s).sp = s.sp
  getReg : ∀ s r, (u s).getReg r = s.getReg r
  memRead : ∀ s a, (u s).memRead a = s.memRead a
  commit : ∀ s t, (u s).commit t = u (s.commit t)
  settle : ∀ s, (u s).settle = u s.settle
  clearScratch : ∀ s, (u s).clearScratch = u s.clearScratch
  clearTmp1 : ∀ s, (u s).clearTmp1 = u s.clearTmp1
  setReg : ∀ s r v, (u s).setReg r v = u (s.setReg r v)
  memWrite : ∀ s a v, (u s).memWrite a v = u (s.memWrite a v)
  withSp : ∀ s v, { u s with sp := v } = u { s with sp := v }

/-- Replacing `QP` is passive. -/
theorem passive_withQp (q : Word) : Passive (withQp q) where
  ip _ := rfl
  sp _ := rfl
  getReg _ r := by cases r <;> rfl
  memRead _ _ := rfl
  commit _ _ := rfl
  settle _ := rfl
  clearScratch _ := rfl
  clearTmp1 _ := rfl
  setReg _ r _ := by cases r <;> rfl
  memWrite s a v := by by_cases h : Params.maps s.params a = true <;> simp [State.memWrite, withQp, h]
  withSp _ _ := rfl

/-- Changing a flag is passive. -/
theorem passive_putFlag (f : Flag) (b : Bool) : Passive (fun s => s.putFlag f b) where
  ip _ := rfl
  sp _ := rfl
  getReg s r := s.getReg_putFlag r f b
  memRead _ _ := rfl
  commit _ _ := rfl
  settle _ := rfl
  clearScratch _ := rfl
  clearTmp1 _ := rfl
  setReg _ r _ := by cases r <;> rfl
  memWrite s a v := by by_cases h : Params.maps s.params a = true <;> simp [State.memWrite, State.putFlag, h]
  withSp _ _ := rfl

namespace Passive

variable {u : State → State}

theorem pop (hu : Passive u) (s : State) : (u s).pop = u s.pop := by rw [State.pop, hu.sp, hu.withSp, State.pop]

theorem popped (hu : Passive u) (s : State) : (u s).popped = s.popped := by
  rw [State.popped, hu.sp, hu.memRead, State.popped]

theorem push (hu : Passive u) (s : State) (v : Word) : (u s).push v = u (s.push v) := by
  rw [State.push, hu.sp, hu.memWrite, hu.withSp, State.push]

theorem absolute (hu : Passive u) (s : State) (a : Word) : (u s).absolute a = s.absolute a := hu.memRead s a

theorem readOperand (hu : Passive u) (s : State) (src : MoveOperand) : (u s).readOperand src = s.readOperand src := by
  cases src with
  | reg r => exact hu.getReg s r
  | cell a => exact hu.memRead s a

theorem writeOperand (hu : Passive u) (s : State) (dst : MoveOperand) (v : Word) :
    (u s).writeOperand dst v = u (s.writeOperand dst v) := by
  cases dst with
  | reg r => exact hu.setReg s r v
  | cell a => simp only [State.writeOperand_cell, hu.memWrite, hu.settle]

/-- It makes no difference to a sequential instruction if it makes none to its effect. -/
theorem sequential (hu : Passive u) {words : Word} {effect : State → State} {s : State} (he : effect (u s) = u (effect s)) :
    Machine.sequential words effect (u s) = mapNext u (Machine.sequential words effect s) := by
  rw [Machine.sequential, Machine.sequential, he, hu.ip, hu.commit, mapNext]

theorem pushShape (hu : Passive u) (r : Reg) (s : State) :
    Machine.pushShape r (u s) = mapNext u (Machine.pushShape r s) :=
  hu.sequential (by rw [hu.getReg, hu.push, hu.settle])

theorem popShape (hu : Passive u) (r : Reg) (s : State) : Machine.popShape r (u s) = mapNext u (Machine.popShape r s) :=
  hu.sequential (by rw [hu.popped, hu.pop, hu.setReg, hu.settle])

theorem execCall (hu : Passive u) (target : Word) (s : State) :
    Machine.execCall target (u s) = mapNext u (Machine.execCall target s) := by
  rw [Machine.execCall, hu.ip, hu.push, hu.settle, hu.clearTmp1, hu.commit, Machine.execCall, mapNext]

theorem execRet (hu : Passive u) (s : State) : Machine.execRet (u s) = mapNext u (Machine.execRet s) := by
  rw [Machine.execRet, hu.popped, hu.pop, hu.settle, hu.commit, Machine.execRet, mapNext]

theorem execJump (hu : Passive u) (target : Word) (s : State) :
    Machine.execJump target (u s) = mapNext u (Machine.execJump target s) := by
  rw [Machine.execJump, hu.commit, Machine.execJump, mapNext]

/-- It makes no difference to a conditional jump if it does not change the flag that the jump reads. -/
theorem jumpShape (hu : Passive u) {f : Flag} {wanted : Bool} {target : Word} {s : State}
    (hf : (u s).flags.get f = s.flags.get f) :
    Machine.jumpShape f wanted target (u s) = mapNext u (Machine.jumpShape f wanted target s) := by
  rw [Machine.jumpShape, hf, hu.ip, hu.commit, Machine.jumpShape, mapNext]

theorem execMove (hu : Passive u) (src dst : MoveOperand) (s : State) :
    Machine.execMove src dst (u s) = mapNext u (Machine.execMove src dst s) :=
  hu.sequential (by rw [hu.readOperand, hu.writeOperand, hu.clearScratch])

/-- It makes no difference to a load if it makes none to the flag update of the load. -/
theorem loadReg (hu : Passive u) {s : State} {r : Reg} {v : Word}
    (hf : { u s with flags := (u s).flags.afterLoad v } = u { s with flags := s.flags.afterLoad v }) :
    (u s).loadReg r v = u (s.loadReg r v) := by
  rw [State.loadReg, hf, hu.setReg, State.loadReg]

/-- It makes no difference to an ALU request if it makes none to the flag update of the answer. -/
theorem aluReg (hu : Passive u) {s : State} {op : AluOp} {r : Reg} {v : Word}
    (hf : ∀ update, update = (alu op (s.getReg r) v).update →
      { u s with flags := (u s).flags.apply update } = u { s with flags := s.flags.apply update }) :
    (u s).aluReg op r v = u (s.aluReg op r v) := by
  simp only [State.aluReg, hu.getReg, hf _ rfl, hu.setReg]
  split <;> rfl

end Passive

/-! ## `QP` -/

/-- No meaning reads `QP`. -/
theorem ExecShape.ignores_qp {m : State → Answer} (hm : ExecShape m) (q : Word) (s : State) :
    m (withQp q s) = mapNext (withQp q) (m s) := by
  have hq := passive_withQp q
  cases hm with
  | nop | flag => exact hq.sequential rfl
  | load r v => exact hq.sequential (hq.loadReg rfl)
  | loadAbsolute r a => exact hq.sequential (by rw [hq.absolute, hq.loadReg rfl])
  | alu words op r v => exact hq.sequential (hq.aluReg fun _ _ => rfl)
  | aluAbsolute op r a => exact hq.sequential (by rw [hq.absolute, hq.aluReg fun _ _ => rfl])
  | push r => exact hq.pushShape r s
  | pop r => exact hq.popShape r s
  | call target => exact hq.execCall target s
  | ret => exact hq.execRet s
  | jump target => exact hq.execJump target s
  | branch => exact hq.jumpShape rfl
  | move src dst => exact hq.execMove src dst s

/-- No meaning writes `QP`: with the value put there that is there already, the outcome has that value. -/
theorem ExecShape.qp {m : State → Answer} (hm : ExecShape m) {s t : State} (h : m s = .next t) : t.qp = s.qp := by
  have hself : m s = mapNext (withQp s.qp) (m s) := hm.ignores_qp s.qp s
  rw [h] at hself
  rw [Host.Outcome.next.inj hself]
  rfl

/-- No tick makes `QP` anything but 0: a reset makes it 0, and nothing else writes it (R28, R42). -/
theorem tick_qp {l : Lines} {s t : State} (hq : s.qp = 0) (h : tick l s = .next t) : t.qp = 0 := by
  have hretire : (s.retire Lines.quiet).qp = 0 := by
    obtain ⟨m, hm⟩ := retire_eq s Lines.quiet
    rw [hm, hq]
  rcases tick_cases h with ⟨-, rfl⟩ | ⟨-, rfl⟩ | ⟨-, -, rfl⟩ | ⟨-, -, -, rfl⟩ | ⟨-, -, -, row, -, rfl⟩
  · rfl
  · exact hq
  · rw [← hretire, State.resetCycle]
    split <;> rfl
  · exact hretire
  · rw [(row.apply_frame _).1, hretire]

/-- Settles O31: `QP` is passive in every meaning, and no tick writes it but a reset. -/
theorem noInstructionReadsOrWritesQp : Obligations.NoInstructionReadsOrWritesQp := by
  refine ⟨fun i q s => (exec_shape i).ignores_qp q s, fun i s t h => (exec_shape i).qp h, fun s t hq h => ?_⟩
  rcases step_cases s with ⟨l, rest, -, hs⟩ | ⟨-, -, hs⟩ | ⟨-, -, hs⟩ <;> rw [hs] at h
  · exact tick_qp (s := s.withLines rest) hq h
  · rw [(exec_shape s.fetchInstr).qp h, State.latch_qp, hq]
  · exact tick_qp hq h

/-! ## Flags that are not read -/

theorem Flags.put_put_same (f : Flags) (n : Flag) (b c : Bool) : (f.put n b).put n c = f.put n c := by cases n <;> rfl

theorem Flags.put_comm (f : Flags) {n m : Flag} (h : n ≠ m) (b c : Bool) : (f.put n b).put m c = (f.put m c).put n b := by
  revert h
  cases n <;> cases m <;> simp [Flags.put]

/-- The update of a defined operation overwrites ZERO and NEGATIVE. -/
theorem Flags.put_apply_written (f : Flags) {n : Flag} (h : n ∈ [Flag.zero, Flag.negative]) (b z g : Bool) :
    (f.put n b).apply (.zeroNegative z g) = f.apply (.zeroNegative z g) := by
  rcases List.mem_pair.mp h with rfl | rfl <;> rfl

/-- The update of a defined operation leaves another flag as it was put. -/
theorem Flags.put_apply_unwritten (f : Flags) {n : Flag} (h : n ∉ [Flag.zero, Flag.negative]) (b z g : Bool) :
    (f.put n b).apply (.zeroNegative z g) = (f.apply (.zeroNegative z g)).put n b := by
  obtain ⟨hz, hn⟩ : n ≠ .zero ∧ n ≠ .negative := by simpa using h
  rw [Flags.apply, Flags.put_comm f hz, Flags.put_comm _ hn, Flags.apply]

/-- A sequential instruction whose effect overwrites what was put into a flag has the same outcome as without it. -/
theorem sequential_putFlag {words : Word} {effect : State → State} {f : Flag} {b : Bool} {s : State}
    (h : effect (s.putFlag f b) = effect s) :
    sequential words effect (s.putFlag f b) = sequential words effect s := by
  rw [sequential, h, State.putFlag_ip, sequential]

theorem loadReg_putFlag_zero (s : State) (b : Bool) (r : Reg) (v : Word) :
    (s.putFlag .zero b).loadReg r v = s.loadReg r v := rfl

theorem aluReg_putFlag_written (s : State) {f : Flag} (hf : f ∈ [Flag.zero, Flag.negative]) (b : Bool) {op : AluOp}
    (hop : op ≠ .other) (r : Reg) (v : Word) : (s.putFlag f b).aluReg op r v = s.aluReg op r v := by
  simp only [State.aluReg_defined _ hop, State.getReg_putFlag, alu_update_defined hop, State.putFlag_flags,
    Flags.put_apply_written _ hf]
  rfl

theorem aluReg_putFlag_unwritten (s : State) {f : Flag} (hf : f ∉ [Flag.zero, Flag.negative]) (b : Bool) {op : AluOp}
    (hop : op ≠ .other) (r : Reg) (v : Word) : (s.putFlag f b).aluReg op r v = (s.aluReg op r v).putFlag f b := by
  refine (passive_putFlag f b).aluReg fun update hupdate => ?_
  rw [hupdate, alu_update_defined hop, State.putFlag_flags, Flags.put_apply_unwritten _ hf]
  rfl

theorem loadReg_putFlag_unwritten (s : State) {f : Flag} (hf : f ∉ [Flag.zero]) (b : Bool) (r : Reg) (v : Word) :
    (s.putFlag f b).loadReg r v = (s.loadReg r v).putFlag f b := by
  refine (passive_putFlag f b).loadReg ?_
  rw [State.putFlag_flags, Flags.afterLoad, Flags.put_comm _ (by simpa using hf)]
  rfl

/-- A flag of its row that a meaning writes is overwritten, whatever its value before. -/
theorem HasFootprint.overwrites {m : State → Answer} {fp : Footprint} (h : HasFootprint m fp) {f : Flag}
    (hf : f ∈ fp.flagsWritten) (b : Bool) (s : State) : m (s.putFlag f b) = m s := by
  cases h with
  | flag g c =>
    obtain rfl := List.mem_singleton.mp hf
    exact sequential_putFlag (by simp only [State.putFlag, Flags.put_put_same])
  | load r v =>
    obtain rfl := List.mem_singleton.mp hf
    exact sequential_putFlag (loadReg_putFlag_zero s b r v)
  | loadAbsolute r a =>
    obtain rfl := List.mem_singleton.mp hf
    exact sequential_putFlag (loadReg_putFlag_zero s b r _)
  | alu words hop r v => exact sequential_putFlag (aluReg_putFlag_written s hf b hop r v)
  | aluAbsolute hop r a => exact sequential_putFlag (aluReg_putFlag_written s hf b hop r _)
  | nop | push | pop | call | ret | jump | branch | moveToReg | moveToCell => cases hf

/-- A flag that is neither read nor written by the row of a meaning passes through it. -/
theorem HasFootprint.passes {m : State → Answer} {fp : Footprint} (h : HasFootprint m fp) {f : Flag}
    (hr : f ∉ fp.flagsRead) (hw : f ∉ fp.flagsWritten) (b : Bool) (s : State) :
    m (s.putFlag f b) = mapNext (fun t => t.putFlag f b) (m s) := by
  have hp := passive_putFlag f b
  cases h with
  | nop => exact hp.sequential rfl
  | flag g c => exact hp.sequential (by simp only [State.putFlag, Flags.put_comm _ (by simpa using hw)])
  | load r v => exact hp.sequential (loadReg_putFlag_unwritten s hw b r v)
  | loadAbsolute r a => exact hp.sequential (loadReg_putFlag_unwritten s hw b r _)
  | alu words hop r v => exact hp.sequential (aluReg_putFlag_unwritten s hw b hop r v)
  | aluAbsolute hop r a => exact hp.sequential (aluReg_putFlag_unwritten s hw b hop r _)
  | push r => exact hp.pushShape r s
  | pop r => exact hp.popShape r s
  | call target => exact hp.execCall target s
  | ret => exact hp.execRet s
  | jump target => exact hp.execJump target s
  | branch g wanted hdest => exact hp.jumpShape (s.flags.get_put_other (fun hg => hr (by simp [hg])) b)
  | moveToReg src r => exact hp.execMove src _ s
  | moveToCell src a => exact hp.execMove src _ s

/-- Settles O27: a flag that is not read is overwritten where the row says that it is written, and passes through elsewhere. -/
theorem flagsMatterOnlyWhereTheTableSays : Obligations.FlagsMatterOnlyWhereTheTableSays := fun i _ b s hr =>
  ⟨fun hw => (exec_hasFootprint i).overwrites hw b s, fun hw => (exec_hasFootprint i).passes hr hw b s⟩

end Sys2Proof.Machine
end

section
/-! PROOFS. The state as the host and the program see it: the views of a register (R22), the stack (R26, R145, R146), the
diagnostic port (R312) and the reset state (R42). -/

namespace Sys2Proof.Machine

open Sys2Proof.Claims

/-! ## Views -/

/-- A view reads what was written to it. -/
theorem SubRange.read_write (v : SubRange) (w : Word) (bits : BitVec v.width) : v.read (v.write w bits) = bits := by
  refine BitVec.eq_of_getLsbD_eq fun i hi => ?_
  rw [SubRange.getLsbD_read, SubRange.getLsbD_write, if_pos (by omega), Nat.add_sub_cancel_left, decide_eq_true hi,
    Bool.true_and]

/-- A write to a view leaves the bits below and above it alone. -/
theorem SubRange.getLsbD_write_outside (v : SubRange) (w : Word) (bits : BitVec v.width) {j : Nat}
    (h : j < v.low ∨ v.low + v.width ≤ j) : (v.write w bits).getLsbD j = w.getLsbD j := by
  rw [SubRange.getLsbD_write, if_neg (by omega)]

/-- Settles O36: on the state a view is the register with some of its bits. -/
theorem viewsWriteTheirBitsOnly : Obligations.ViewsWriteTheirBitsOnly := by
  refine ⟨SubRange.read_write, fun v w bits j => v.getLsbD_write_outside w bits, fun s r v bits => ?_,
    fun w => ⟨rfl, rfl, rfl, rfl, rfl, rfl⟩⟩
  refine ⟨?_, fun q hq => s.getReg_setReg_other (by simpa using hq) _, s.setReg_mem r _, _, rfl⟩
  rw [State.readView, State.writeView, State.getReg_setReg_same, SubRange.read_write]

/-! ## The stack -/

/-- `PUSH_r` by its shape. -/
theorem exec_pushOf (r : Reg) : exec (pushOf r) = pushShape r := by cases r <;> rfl

/-- `POP_q` by its shape. -/
theorem exec_popOf (q : Reg) : exec (popOf q) = popShape q := by cases q <;> rfl

/-- After a push to a mapped cell, what a pop would read is the pushed value: `SP` comes back, at either end of the address
space too. -/
theorem popped_push {s : State} (hwf : s.mem.wf = true) (hmap : Params.maps s.params s.sp = true) (v : Word) :
    (s.push v).popped = v := by
  rw [State.popped, State.push_sp, BitVec.sub_add_cancel, State.memRead_push, State.memRead_memWrite_same hwf hmap]

/-- Settles O42: the pop reads the cell of the push. -/
theorem stackRoundTrip : Obligations.StackRoundTrip := by
  intro s r q hwf hmap
  have hpopped : ((s.push (s.getReg r)).settle.commit (s.ip + 1)).popped = s.getReg r := popped_push hwf hmap _
  rw [exec_pushOf, exec_popOf]
  refine ⟨_, _, rfl, rfl, ?_, ?_⟩
  · simp
  · rw [State.getReg_commit, State.getReg_settle, State.getReg_setReg_same, hpopped]

/-! ## The diagnostic port -/

/-- Bit `k` of the five flags is the `k`-th flag in the order of listing (R30). -/
theorem Flags.getLsbD_toBits (f : Flags) (n : Flag) : f.toBits.getLsbD (flagNumber n).toNat = f.get n := by
  obtain ⟨zero, carry, negative, error, overflow⟩ := f
  cases n <;> revert zero carry negative error overflow <;> decide

/-- Settles O37: the port copies the registers, and the five flags are all its container shows of them. -/
theorem diagnosticPortShowsTheRegisters : Obligations.DiagnosticPortShowsTheRegisters := by
  refine fun s => ⟨rfl, rfl, rfl, rfl, rfl, rfl, fun f => s.flags.getLsbD_toBits f, fun n j hj => ?_⟩
  rw [DiagPort.flagsIn, BitVec.getLsbD_setWidth, BitVec.getLsbD_of_ge _ _ hj, Bool.and_false]

/-! ## The reset state -/

/-- Settles O48: the reset state is its own reset, so it is where the reset sequence begins. -/
theorem resetStateHasTheInvariants : Obligations.ResetStateHasTheInvariants :=
  ⟨(protocolInv_rs0 rfl).mpr State.reset_resetRegisters.symm, State.reset_mem_wf, rfl, rfl, rfl⟩

end Sys2Proof.Machine
end

section
/-! PROOFS. The memory (R60, R64 to R67, R70, R73, R78, R80): reads after writes, the one cell an instruction stores to, and the
canonical form of the byte list, which every tick and every whole instruction keeps and in which equal cells are equal data. -/

namespace Sys2Proof.Machine

open Sys2Proof.Claims

/-! ## Reads and writes -/

/-- A read of an unmapped address gives all ones (R65). -/
theorem State.memRead_unmapped {s : State} {a : Word} (hm : Params.maps s.params a = false) : s.memRead a = 0xFFFFFFFF := by
  rw [State.memRead, hm]
  rfl

/-- The memory after a write transaction, from what the transaction depends on (R66, R67). -/
def Memory.written (p : Params) (m : Memory) (a v : Word) : Memory := if Params.maps p a then m.writeCell a v else m

/-- A write changes at most the memory (R66). -/
theorem State.memWrite_eq (s : State) (a v : Word) : s.memWrite a v = { s with mem := s.mem.written s.params a v } := by
  rw [State.memWrite, Memory.written]
  split <;> rfl

/-- Settles O38: the laws of the two transactions, by whether the address is mapped. -/
theorem readAfterWrite : Obligations.ReadAfterWrite := fun s a _ v =>
  ⟨fun hm => if_pos hm, fun hm hwf => State.memRead_memWrite_same hwf hm v, fun hba => s.memRead_memWrite_other v hba,
    fun hm => ⟨State.memWrite_unmapped hm v, State.memRead_unmapped hm⟩, _, s.memWrite_eq a v⟩

/-! ## The canonical form -/

/-- A canonical list from a higher key on does not list the key, so it cannot read a byte other than 0 there. -/
theorem Memory.not_wfFrom_above {m : Memory} {k : Nat} {b : Byte} (hb : b ≠ 0) (hread : m.readByte k = b) :
    ¬ Memory.wfFrom (k + 1) m = true := fun h =>
  hb (hread.symm.trans (Memory.readByte_below h k.lt_succ_self))

theorem Memory.readByte_head (k : Nat) (b : Byte) (rest : Memory) : Memory.readByte ((k, b) :: rest) k = b := by
  rw [Memory.readByte, if_pos rfl]

/-- Canonical lists that read the same at every key of the address space are equal: each lists exactly the bytes that are
not 0. -/
theorem Memory.eq_of_readByte_eq {m n : Memory} {low : Nat} (hm : Memory.wfFrom low m = true)
    (hn : Memory.wfFrom low n = true) (h : ∀ key < 4 * 2 ^ 32, m.readByte key = n.readByte key) : m = n := by
  induction m generalizing n low with
  | nil =>
    cases n with
    | nil => rfl
    | cons e rest =>
      obtain ⟨k, b⟩ := e
      obtain ⟨-, hk, hb, -⟩ := Memory.wfFrom_cons.mp hn
      exact absurd rfl (Memory.not_wfFrom_above hb ((h k hk).trans (Memory.readByte_head k b rest)))
  | cons e rest ih =>
    obtain ⟨k, b⟩ := e
    obtain ⟨hlow, hk, hb, hrest⟩ := Memory.wfFrom_cons.mp hm
    have hread : n.readByte k = b := (h k hk).symm.trans (Memory.readByte_head k b rest)
    have hnot := Memory.not_wfFrom_above hb hread
    cases n with
    | nil => exact absurd rfl hnot
    | cons e' rest' =>
      obtain ⟨k', b'⟩ := e'
      obtain ⟨hlow', hk', hb', hrest'⟩ := Memory.wfFrom_cons.mp hn
      have hread' : Memory.readByte ((k, b) :: rest) k' = b' := (h k' hk').trans (Memory.readByte_head k' b' rest')
      have hnot' := Memory.not_wfFrom_above hb' hread'
      rw [Memory.wfFrom_cons] at hnot hnot'
      obtain rfl : k = k' := by
        by_contra hne
        rcases Nat.lt_or_gt_of_ne hne with hlt | hgt
        · exact hnot ⟨hlt, hk', hb', hrest'⟩
        · exact hnot' ⟨hgt, hk, hb, hrest⟩
      obtain rfl : b = b' := (Memory.readByte_head k b rest).symm.trans hread'
      congr 1
      refine ih hrest hrest' fun key hkey => ?_
      by_cases hkk : k = key
      · subst hkk
        rw [Memory.readByte_below hrest k.lt_succ_self, Memory.readByte_below hrest' k.lt_succ_self]
      · have hboth := h key hkey
        rwa [Memory.readByte, if_neg hkk, Memory.readByte, if_neg hkk] at hboth

/-- The bytes of a cell, read from the word of the cell. -/
theorem Memory.extractLsb'_readCell (m : Memory) (a : Word) {j : Nat} (hj : j < 4) :
    (m.readCell a).extractLsb' (8 * j) 8 = m.readByte (byteKey a j) := by
  refine BitVec.eq_of_getLsbD_eq fun i hi => ?_
  rw [Memory.readCell, BitVec.getLsbD_extractLsb', decide_eq_true hi, Bool.true_and]
  simp only [BitVec.getLsbD_append]
  match j, hj with
  | 0, _ => rw [if_pos (by omega)]; congr 1; omega
  | 1, _ => rw [if_neg (by omega), if_pos (by omega)]; congr 1; omega
  | 2, _ => rw [if_neg (by omega), if_neg (by omega), if_pos (by omega)]; congr 1; omega
  | 3, _ => rw [if_neg (by omega), if_neg (by omega), if_neg (by omega)]; congr 1; omega

/-- Every key of the address space is the key of a byte of a cell. -/
theorem exists_byteKey_eq {key : Nat} (h : key < 4 * 2 ^ 32) : ∃ (a : Word) (j : Nat), j < 4 ∧ byteKey a j = key := by
  refine ⟨BitVec.ofNat 32 (key / 4), key % 4, Nat.mod_lt _ (by decide), ?_⟩
  rw [byteKey, BitVec.toNat_ofNat, Nat.mod_eq_of_lt (by omega)]
  omega

/-- Settles O39: equal cells have equal bytes, and canonical lists with equal bytes are equal. -/
theorem canonicalMemoriesWithEqualCellsAreEqual : Obligations.CanonicalMemoriesWithEqualCellsAreEqual := by
  intro m n hm hn h
  refine Memory.eq_of_readByte_eq hm hn fun key hkey => ?_
  obtain ⟨a, j, hj, rfl⟩ := exists_byteKey_eq hkey
  rw [← Memory.extractLsb'_readCell m a hj, h, Memory.extractLsb'_readCell n a hj]

/-- A meaning of any shape keeps the canonical form: what it writes to memory is one cell, through the port. -/
theorem ExecShape.wf {m : State → Answer} (hm : ExecShape m) {s t : State} (hwf : s.mem.wf = true) (h : m s = .next t) :
    t.mem.wf = true := by
  cases hm with
  | push r =>
    rw [pushShape_next_iff.mp h, State.commit_mem, State.settle_mem, State.push_mem]
    exact State.wf_memWrite hwf _ _
  | call target =>
    cases h
    rw [State.commit_mem, State.clearTmp1_mem, State.settle_mem, State.push_mem]
    exact State.wf_memWrite hwf _ _
  | move src dst =>
    cases h
    cases dst with
    | reg r => simpa using hwf
    | cell a => simpa using State.wf_memWrite hwf a _
  | branch f wanted target => rcases jumpShape_next_iff.mp h with ⟨-, rfl⟩ | ⟨-, rfl⟩ <;> exact hwf
  | nop | flag | load | loadAbsolute | alu | aluAbsolute | pop | ret | jump =>
    cases h
    simpa using hwf

@[simp] theorem State.resetCycle_mem (s : State) (d : Word) : (s.resetCycle d).mem = s.mem := by
  rw [State.resetCycle]
  split <;> rfl

/-- A tick of any kind keeps the canonical form: it retires at most one transaction. -/
theorem tick_wf {l : Lines} {s t : State} (hwf : s.mem.wf = true) (h : tick l s = .next t) : t.mem.wf = true := by
  have hretire := State.wf_retire hwf Lines.quiet
  rcases tick_cases h with ⟨-, rfl⟩ | ⟨-, rfl⟩ | ⟨-, -, rfl⟩ | ⟨-, -, -, rfl⟩ | ⟨-, -, -, row, -, rfl⟩
  · exact hwf
  · exact hwf
  · rwa [State.resetCycle_mem]
  · exact hretire
  · obtain ⟨-, -, -, -, hmem, -⟩ := row.apply_frame (s.retire Lines.quiet)
    rwa [hmem]

/-- Settles O40: a step is a tick or a whole instruction, and either writes memory through the port only. -/
theorem everyStepKeepsMemoryCanonical : Obligations.EveryStepKeepsMemoryCanonical := by
  intro s t hwf h
  rcases step_cases s with ⟨l, rest, -, hs⟩ | ⟨-, -, hs⟩ | ⟨-, -, hs⟩ <;> rw [hs] at h
  · exact tick_wf (s := s.withLines rest) hwf h
  · exact (exec_shape s.fetchInstr).wf (s := s.latch) hwf h
  · exact tick_wf hwf h

/-! ## Stores -/

/-- A meaning leaves every cell alone but the one at the store address of its row (R73). -/
theorem HasFootprint.sameMemory {m : State → Answer} {fp : Footprint} (h : HasFootprint m fp) (s : State) :
    ∃ t, m s = .next t ∧ SameMemory s t (fp.storeAddress s) := by
  have hne {a b : Word} (hab : some a ≠ some b) : b ≠ a := fun e => hab (congrArg some e.symm)
  cases h with
  | push r => exact ⟨_, rfl, fun a ha => by simp [hne ha]⟩
  | call target => exact ⟨_, rfl, fun a ha => by simp [hne ha]⟩
  | moveToCell src c => exact ⟨_, rfl, fun a ha => by simp [hne ha]⟩
  | nop | flag | load | loadAbsolute | alu | aluAbsolute | pop | ret | jump | branch | moveToReg =>
    exact ⟨_, rfl, fun a _ => by simp⟩

/-- Settles O29: every meaning has the shape that goes with its store address. -/
theorem memoryChangesOnlyAtTheStoreAddress : Obligations.MemoryChangesOnlyAtTheStoreAddress :=
  fun i s => (exec_hasFootprint i).sameMemory s

/-- Settles O41: both instructions store to the cell that `IP` is at after them. -/
theorem storeIsSeenByTheNextFetch : Obligations.StoreIsSeenByTheNextFetch := by
  intro s r hwf
  refine ⟨fun hsp hmap => ⟨_, congrFun (exec_pushOf r) s, ?_⟩, fun hmap => ⟨_, rfl, ?_⟩⟩
  · have hnext : (s.memWrite s.sp (s.getReg r)).memRead (s.ip + 1) = s.getReg r := by
      rw [← hsp, State.memRead_memWrite_same hwf hmap]
    simpa using hnext
  · simpa using State.memRead_memWrite_same hwf hmap (s.getReg r)

/-! ## Wait states and unmapped fetches -/

/-- Settles O52, by induction on the number of wait states. -/
theorem stallHoldsEverything : Obligations.StallHoldsEverything := by
  intro s n
  induction n with
  | zero => rfl
  | succ n ih => rw [List.replicate_succ, tickLines_stall, ih]

/-- No instruction has the opcode that an unmapped cell reads as (R65, R112). -/
theorem lookup_unmappedRead : lookup 0xFFFFFFFF = none := lookup_none (by decide)

/-- Settles O11: the all-ones word is an unassigned opcode, which executes as `NOP`. -/
theorem unmappedFetchAdvancesIp : Obligations.UnmappedFetchAdvancesIp := by
  refine fun s => ⟨fun a => State.memRead_unmapped, fun hb hl hm => ?_⟩
  have hword : s.memRead s.ip = 0xFFFFFFFF := State.memRead_unmapped hm
  have hnop : s.fetchInstr = .nop := by rw [State.fetchInstr, hword, decode_unassigned lookup_unmappedRead]
  obtain ⟨-, hi, -⟩ := atBoundary_iff.mp hb
  have hcommit : s.latch.commit (s.ip + 1) = { s with ir := s.memRead s.ip, ip := s.ip + 1, busAddr := s.ip + 1 } := by
    rw [State.commit, ← hi]
    rfl
  rw [step_of_atBoundary hb hl, hnop, ← hword, ← hcommit]
  rfl

end Sys2Proof.Machine
end

section
/-! PROOFS. The two levels of the machine agree (R8, R72, R75, R139, R346): from an instruction boundary the un-stalled ticks of
a cycle table lead to the state that the meaning of the whole instruction answers, and retire the transactions tabulated for it.
One lemma for each table runs its cycles; the states in between are those of `Obligations.lean`. -/

namespace Sys2Proof.Machine

open Sys2Proof.Claims

/-! ## Runs of cycles -/

/-- Un-stalled ticks lead from a state through the listed states to the last one, and each retires one of the listed
transactions. -/
inductive CycleRun : State → List State → List Transaction → State → Prop
  | last {s t : State} {x : Transaction} (hx : s.presented = x) (ht : tick Lines.quiet s = .next t) : CycleRun s [] [x] t
  | cons {s u t : State} {us : List State} {x : Transaction} {xs : List Transaction} (hx : s.presented = x)
    (hu : tick Lines.quiet s = .next u) (rest : CycleRun u us xs t) : CycleRun s (u :: us) (x :: xs) t

/-- A run is not upset by wait states, as long as the un-stalled ticks are as many as its cycles (R70, R139). -/
theorem CycleRun.tickLines {s t : State} {us : List State} {xs : List Transaction} (h : CycleRun s us xs t)
    {ls : List Lines} (hrst : ∀ l ∈ ls, l.rst = false) (hn : unstalled ls = xs.length) :
    Machine.tickLines ls s = .next t := by
  induction ls generalizing s us xs with
  | nil => cases h <;> cases hn
  | cons l rest ih =>
    obtain ⟨hl, hrest⟩ := List.forall_mem_cons.mp hrst
    rcases lines_of_no_rst hl with rfl | rfl
    · rw [tickLines_stall]
      exact ih h hrest hn
    · rw [unstalled_quiet] at hn
      cases h with
      | last hx ht =>
        rw [tickLines_cons ht]
        exact (run_of_unstalled_eq_zero t hrest (Nat.succ.inj hn)).1
      | cons hx hu hrun =>
        rw [tickLines_cons hu]
        exact ih hrun hrest (Nat.succ.inj hn)

/-- The transactions of a run of ticks that starts with an un-stalled one. -/
theorem busTrace_quiet_cons {s t : State} {x : Transaction} (hx : s.presented = x) (ht : tick Lines.quiet s = .next t)
    (rest : List Lines) : busTrace (Lines.quiet :: rest) s = x :: busTrace rest t := by
  rw [busTrace, ht, ← hx]
  rfl

theorem CycleRun.busTrace {s t : State} {us : List State} {xs : List Transaction} (h : CycleRun s us xs t) :
    Machine.busTrace (List.replicate xs.length Lines.quiet) s = xs := by
  induction h with
  | last hx ht => exact busTrace_quiet_cons hx ht []
  | cons hx hu _ ih =>
    rw [List.length_cons, List.replicate_succ, busTrace_quiet_cons hx hu, ih]

/-! ## Execute cycles -/

theorem presented_read {s : State} (h : s.busRw = .read) : s.presented = .read s.busAddr := by simp only [State.presented, h]

theorem presented_write {s : State} (h : s.busRw = .write) : s.presented = .write s.busAddr s.busDataOut := by
  simp only [State.presented, h]

/-- The machine is in execute cycle `k` of a protocol. -/
structure Executing (table : CycleTable) (k : Nat) (s : State) : Prop where
  run : s.resetState = .run
  protocol : s.protocol = table
  count : s.instrState.toNat = k

theorem Executing.instrState_ne_zero {table : CycleTable} {k : Nat} {s : State} (h : Executing table (k + 1) s) :
    s.instrState ≠ 0 := by
  intro h0
  have hcount := h.count
  rw [h0] at hcount
  cases hcount

/-- An execute cycle that reads applies its row (R133). -/
theorem Executing.tick_read {table : CycleTable} {k : Nat} {s : State} {row : CycleRow} (h : Executing table (k + 1) s)
    (hrw : s.busRw = .read) (hrow : table (k + 1) s (s.memRead s.busAddr) = some row) :
    tick Lines.quiet s = .next (row.apply s) :=
  tick_execute_read h.run h.instrState_ne_zero hrw (by rw [State.currentRow, h.protocol, h.count, hrow])

/-- An execute cycle that writes applies its row to the state with the cell written (R62, R133). -/
theorem Executing.tick_write {table : CycleTable} {k : Nat} {s : State} {row : CycleRow} (h : Executing table (k + 1) s)
    (hrw : s.busRw = .write) (hrow : ∀ d, table (k + 1) (s.memWrite s.busAddr s.busDataOut) d = some row) :
    tick Lines.quiet s = .next (row.apply (s.memWrite s.busAddr s.busDataOut)) := by
  have hprotocol : (s.memWrite s.busAddr s.busDataOut).protocol = table := by
    rw [← h.protocol, State.protocol, State.memWrite_ir, State.protocol]
  exact tick_execute_write h.run h.instrState_ne_zero hrw
    (by rw [State.currentRow, hprotocol, State.memWrite_instrState, h.count, hrow])

/-! ## Rows and operations -/

/-- With a commit, a row does what an operation of the whole-instruction level does, and it makes no difference to the
operation whether the commit comes before or after it. -/
structure Carries (row : State → CycleRow) (op : State → State) : Prop where
  apply_commit : ∀ s t, ({ row s with commit := some t } : CycleRow).apply s = (op s).commit t
  commit : ∀ s t, (op s).commit t = op (s.commit t)

theorem carries_nop : Carries (fun _ => {}) id := ⟨fun _ _ => rfl, fun _ _ => rfl⟩

theorem carries_putFlag (f : Flag) (b : Bool) :
    Carries (fun s => { flags := some (s.flags.put f b) }) (fun s => s.putFlag f b) := ⟨fun _ _ => rfl, fun _ _ => rfl⟩

theorem carries_loadRow (r : Reg) (v : Word) : Carries (fun s => loadRow r s v) (fun s => s.loadReg r v) := by
  cases r <;> exact ⟨fun _ _ => rfl, fun _ _ => rfl⟩

theorem carries_aluRow (op : AluOp) (r : Reg) (v : Word) : Carries (fun s => aluRow op r s v) (fun s => s.aluReg op r v) := by
  cases op <;> cases r <;> exact ⟨fun _ _ => rfl, fun _ _ => rfl⟩

/-- A last cycle with such a row: from states that differ only in what a commit overwrites, it leads to the same state. -/
theorem Carries.tick_last {row : State → CycleRow} {op : State → State} (hc : Carries row op) {table : CycleTable} {k : Nat}
    {s u : State} {next : Word} (h : Executing table (k + 1) u) (hrw : u.busRw = .read)
    (hrow : table (k + 1) u (u.memRead u.busAddr) = some { row u with commit := some next })
    (hs : u.commit next = s.commit next) : tick Lines.quiet u = .next ((op s).commit next) := by
  rw [h.tick_read hrw hrow, hc.apply_commit, hc.commit, hs, ← hc.commit]

/-! ## The opening cycles -/

theorem reads_of_atBoundary {s : State} (hb : s.atBoundary = true) : s.busRw = .read := by
  obtain ⟨-, -, -, hrw, -⟩ := atBoundary_iff.mp hb
  exact hrw

theorem presented_of_atBoundary {s : State} (hb : s.atBoundary = true) : s.presented = .read s.ip := by
  obtain ⟨-, -, haddr, hrw, -⟩ := atBoundary_iff.mp hb
  rw [presented_read hrw, haddr]

/-- The fetch cycle leads to execute cycle 1 of the protocol that the opcode word dispatches to (R132, R134). -/
theorem executing_fetchCycle {table : CycleTable} {s : State} (hb : s.atBoundary = true)
    (hd : cycleTable (decode (s.memRead s.ip) 0 0) = table) : Executing table 1 (s.fetchCycle (s.memRead s.ip)) :=
  ⟨(atBoundary_iff.mp hb).1, hd, rfl⟩

/-- At the boundary where an instruction is fetched, whose opcode word dispatches to a table (R132, R134). -/
structure Fetches (i : Instr) (table : CycleTable) (s : State) : Prop where
  boundary : s.atBoundary = true
  word : s.memRead s.ip = opcodeWord i
  dispatch : cycleTable (decode (s.memRead s.ip) 0 0) = table

section Opening

variable {i : Instr} {table : CycleTable} {s t : State}

theorem Fetches.tick_fetch (h : Fetches i table s) : tick Lines.quiet s = .next (fetched i s) := by
  rw [tick_boundary h.boundary, h.word, fetched]

theorem Fetches.executing (h : Fetches i table s) : Executing table 1 (fetched i s) := by
  have hcycle := executing_fetchCycle h.boundary h.dispatch
  rwa [h.word] at hcycle

/-- The commit overwrites all that the fetch and the operand cycles have changed but `IR`. -/
theorem Fetches.fetched_commit (h : Fetches i table s) (next : Word) : (fetched i s).commit next = s.latch.commit next := by
  rw [State.latch, h.word]
  rfl

/-- The opcode word is read twice: in the fetch cycle, and in cycle 1, which does not look at it (R72, R132). -/
theorem Fetches.run_opening (h : Fetches i table s) {row : CycleRow} {u : State} {us : List State} {xs : List Transaction}
    (hrow : ∀ d, table 1 (fetched i s) d = some row) (hu : row.apply (fetched i s) = u) (rest : CycleRun u us xs t) :
    CycleRun s (fetched i s :: u :: us) (openingReads s.ip ++ xs) t := by
  have hread := presented_of_atBoundary h.boundary
  have hrw := reads_of_atBoundary h.boundary
  have hcycle := h.executing.tick_read hrw (hrow _)
  exact .cons hread h.tick_fetch (.cons hread (hu ▸ hcycle) rest)

/-- An instruction whose cycle 1 commits makes no other reads than those two. -/
theorem Fetches.run_opening_only (h : Fetches i table s) {row : CycleRow} (hrow : ∀ d, table 1 (fetched i s) d = some row)
    (ht : row.apply (fetched i s) = t) : CycleRun s [fetched i s] (openingReads s.ip) t := by
  have hread := presented_of_atBoundary h.boundary
  have hrw := reads_of_atBoundary h.boundary
  have hcycle := h.executing.tick_read hrw (hrow _)
  exact .cons hread h.tick_fetch (.last hread (ht ▸ hcycle))

end Opening

/-! ## The tables -/

theorem add_one_add_one (a : Word) : a + 1 + 1 = a + 2 := BitVec.add_assoc a 1 1

/-- The zero-operand table (R170). The opcode word may be an unassigned one, which dispatches to the table of `NOP` (R112). -/
theorem zeroOperandTable_run {row : State → CycleRow} {op : State → State} (hc : Carries row op) {s : State}
    (hb : s.atBoundary = true) (hd : cycleTable (decode (s.memRead s.ip) 0 0) = zeroOperandTable row) :
    CycleRun s [s.fetchCycle (s.memRead s.ip)] (openingReads s.ip) ((op s.latch).commit (s.ip + 1)) := by
  have hread := presented_of_atBoundary hb
  have hrw := reads_of_atBoundary hb
  exact .cons hread (tick_boundary hb) (.last hread (hc.tick_last (executing_fetchCycle hb hd) hrw rfl rfl))

section Tables

variable {i : Instr} {s : State}

/-- The immediate table (R200): the word after the opcode word is the operand. -/
theorem immediateTable_run {row : State → Word → CycleRow} {op : Word → State → State}
    (hc : ∀ v, Carries (fun u => row u v) (op v)) (h : Fetches i (immediateTable row) s) {imm : Word}
    (himm : s.memRead (s.ip + 1) = imm) :
    CycleRun s [fetched i s, atOperand i s] (openingReads s.ip ++ [.read (s.ip + 1)])
      ((op imm s.latch).commit (s.ip + 2)) := by
  subst himm
  have hrw := reads_of_atBoundary h.boundary
  have hcycle : Executing (immediateTable row) 2 (atOperand i s) := ⟨h.executing.run, h.executing.protocol, rfl⟩
  rw [← add_one_add_one]
  refine h.run_opening (fun _ => rfl) rfl (.last (presented_read hrw) ?_)
  exact (hc _).tick_last hcycle hrw rfl (h.fetched_commit _)

/-- The absolute table (R220): the word after the opcode word is the address of the operand. -/
theorem absoluteTable_run {row : State → Word → CycleRow} {op : Word → State → State}
    (hc : ∀ v, Carries (fun u => row u v) (op v)) (h : Fetches i (absoluteTable row) s) {addr : Word}
    (haddr : s.memRead (s.ip + 1) = addr) :
    CycleRun s [fetched i s, atOperand i s, atCell i addr s] (openingReads s.ip ++ [.read (s.ip + 1), .read addr])
      ((op (s.memRead addr) s.latch).commit (s.ip + 2)) := by
  subst haddr
  have hrw := reads_of_atBoundary h.boundary
  have hcycle2 : Executing (absoluteTable row) 2 (atOperand i s) := ⟨h.executing.run, h.executing.protocol, rfl⟩
  have hcycle3 : Executing (absoluteTable row) 3 (atCell i (s.memRead (s.ip + 1)) s) :=
    ⟨h.executing.run, h.executing.protocol, rfl⟩
  rw [← add_one_add_one]
  refine h.run_opening (fun _ => rfl) rfl (.cons (presented_read hrw) (hcycle2.tick_read hrw rfl)
    (.last (presented_read hrw) ?_))
  exact (hc _).tick_last hcycle3 hrw rfl (h.fetched_commit _)

/-- The table of `PUSH_r` (R240): the write that is presented in the last cycle is the store of the push. -/
theorem pushTable_run {r : Reg} (h : Fetches i (pushTable r) s) :
    CycleRun s [fetched i s, requestsPush 2 (s.getReg r) (fetched i s)] (openingReads s.ip ++ [.write s.sp (s.getReg r)])
      ((s.latch.push (s.getReg r)).settle.commit (s.ip + 1)) := by
  have hreg : (fetched i s).getReg r = s.getReg r := by cases r <;> rfl
  have hcycle : Executing (pushTable r) 2 (requestsPush 2 (s.getReg r) (fetched i s)) :=
    ⟨h.executing.run, h.executing.protocol, rfl⟩
  refine h.run_opening (fun _ => rfl) (by rw [hreg]; rfl) (.last (presented_write rfl) ?_)
  rw [hcycle.tick_write rfl fun _ => rfl, State.push, State.latch, h.word, State.memWrite_eq, State.memWrite_eq]
  rfl

/-- The request of a pop, from a cycle that presents a read (R146). -/
theorem apply_popRequest {u : State} {k : BitVec 3} (hrw : u.busRw = .read) (hk : u.instrState + 1 = k) :
    ({ stack := some .pop } : CycleRow).apply u = requestsPop k u := by
  cases u
  cases hrw
  cases hk
  rfl

/-- The tables that pop (R240): the request, and a last cycle with the popped word. -/
theorem Fetches.run_pop {table : CycleTable} (h : Fetches i table s) {row : CycleRow}
    (hrequest : ∀ d, table 1 (fetched i s) d = some { stack := some .pop })
    (hlast : table 2 (requestsPop 2 (fetched i s)) s.latch.popped = some row) :
    CycleRun s [fetched i s, requestsPop 2 (fetched i s)] (openingReads s.ip ++ [.read (s.sp + 1)])
      (row.apply (requestsPop 2 (fetched i s))) := by
  have hrw := reads_of_atBoundary h.boundary
  have hcycle : Executing table 2 (requestsPop 2 (fetched i s)) := ⟨h.executing.run, h.executing.protocol, rfl⟩
  exact h.run_opening hrequest (apply_popRequest hrw rfl) (.last (presented_read hrw) (hcycle.tick_read hrw hlast))

/-- The table of `POP_r` (R240). -/
theorem popTable_run {r : Reg} (h : Fetches i (popTable r) s) :
    CycleRun s [fetched i s, requestsPop 2 (fetched i s)] (openingReads s.ip ++ [.read (s.sp + 1)])
      ((s.latch.pop.setReg r s.latch.popped).settle.commit (s.ip + 1)) := by
  have hrun := h.run_pop (fun _ => rfl) rfl
  rw [State.latch, h.word]
  cases r <;> exact hrun

/-- The table of `RETURN` (R240). -/
theorem returnTable_run (h : Fetches i returnTable s) :
    CycleRun s [fetched i s, requestsPop 2 (fetched i s)] (openingReads s.ip ++ [.read (s.sp + 1)])
      (s.latch.pop.settle.commit s.latch.popped) := by
  have hrun := h.run_pop (fun _ => rfl) rfl
  rw [State.latch, h.word]
  exact hrun

/-- The table of `CALL` (R240): the target is read before the return address is stored, and waits in `tmp1`. -/
theorem callTable_run (h : Fetches i callTable s) {target : Word} (htarget : s.memRead (s.ip + 1) = target) :
    CycleRun s [fetched i s, atOperand i s, requestsPush 3 (s.ip + 2) { atOperand i s with tmp1 := target }]
      (openingReads s.ip ++ [.read (s.ip + 1), .write s.sp (s.ip + 2)])
      ((s.latch.push (s.ip + 2)).settle.clearTmp1.commit target) := by
  subst htarget
  have hrw := reads_of_atBoundary h.boundary
  have hcycle2 : Executing callTable 2 (atOperand i s) := ⟨h.executing.run, h.executing.protocol, rfl⟩
  rw [← add_one_add_one]
  refine h.run_opening (fun _ => rfl) rfl (.cons (presented_read hrw) (hcycle2.tick_read hrw rfl)
    (.last (presented_write rfl) ?_))
  have hcycle3 : Executing callTable 3
      (requestsPush 3 (s.ip + 1 + 1) { atOperand i s with tmp1 := s.memRead (s.ip + 1) }) :=
    ⟨h.executing.run, h.executing.protocol, rfl⟩
  refine (hcycle3.tick_write rfl fun _ => rfl).trans ?_
  rw [State.push, State.latch, h.word, State.memWrite_eq, State.memWrite_eq]
  rfl

/-- The branch table (R260): the operand word is read only if the jump is taken. -/
theorem branchTable_run {cond : Flags → Bool} (h : Fetches i (branchTable cond) s) {target next : Word}
    (htarget : s.memRead (s.ip + 1) = target) (hnext : next = if cond s.flags then target else s.ip + 2) :
    CycleRun s (fetched i s :: if cond s.flags then [atOperand i s] else []) (jumpReads (cond s.flags) s.ip)
      (s.latch.commit next) := by
  subst htarget hnext
  have hrw := reads_of_atBoundary h.boundary
  have hcycle : Executing (branchTable cond) 2 (atOperand i s) := ⟨h.executing.run, h.executing.protocol, rfl⟩
  rw [← h.fetched_commit, jumpReads]
  rcases hc : cond s.flags with _ | _
  · exact h.run_opening_only (row := { commit := some (s.ip + 2) }) (fun d => by simp [branchTable, fetched, hc]) rfl
  · refine h.run_opening (row := advanceRow (fetched i s)) (fun d => by simp [branchTable, fetched, hc]) rfl ?_
    exact .last (presented_read hrw) (hcycle.tick_read hrw rfl)

end Tables

/-! ## The table of `MOVE` -/

/-- A well-formed cell operand is not a register id (R280). -/
theorem regOfId?_of_wellFormed {a : Word} (h : (MoveOperand.cell a).wellFormed = true) : regOfId? a = none := by
  rw [← Option.not_isSome_iff_eq_none, regOfId?_isSome]
  simpa [MoveOperand.wellFormed] using h

section Move

variable {i : Instr} {src : MoveOperand} {s : State}

/-- Cycle 2 of a `MOVE` keeps the source word, and addresses the cell if it names one (R281). -/
theorem moveTable_takes_source (hwf : src.wellFormed = true) :
    ∃ row, moveTable 2 (atOperand i s) src.toWord = some row ∧
      row.apply (atOperand i s) = movesFrom i src s := by
  refine ⟨_, rfl, ?_⟩
  cases src with
  | reg r =>
    simp only [movesFrom, MoveOperand.toWord, regOfId?_id, ← add_one_add_one s.ip]
    rfl
  | cell a =>
    simp only [movesFrom, MoveOperand.toWord, regOfId?_of_wellFormed hwf, ← add_one_add_one s.ip]
    rfl

/-- Cycle 3 of a `MOVE` keeps the source value, from the register or from the cell addressed (R281). -/
theorem moveTable_takes_value (hwf : src.wellFormed = true) :
    ∃ row, moveTable 3 (movesFrom i src s) (s.memRead (sourceAddress src s)) = some row ∧
      row.apply (movesFrom i src s) = movesTo i src (s.readOperand src) s := by
  refine ⟨_, rfl, ?_⟩
  cases src with
  | reg r =>
    have hid : regOfId? (movesFrom i (.reg r) s).tmp2 = some r := regOfId?_id r
    simp only [hid]
    cases r <;> rfl
  | cell a =>
    have hid : regOfId? (movesFrom i (.cell a) s).tmp2 = none := regOfId?_of_wellFormed hwf
    simp only [hid]
    rfl

/-- The cycles that every `MOVE` has, up to the one that reads the destination word (R281). -/
theorem moveTable_run_opening (h : Fetches i moveTable s) (hwf : src.wellFormed = true)
    (hsrc : s.memRead (s.ip + 1) = src.toWord) {us : List State} {xs : List Transaction} {t : State}
    (rest : CycleRun (movesTo i src (s.readOperand src) s) us xs t) :
    CycleRun s
      (fetched i s :: atOperand i s :: movesFrom i src s :: movesTo i src (s.readOperand src) s :: us)
      (openingReads s.ip ++ .read (s.ip + 1) :: .read (sourceAddress src s) :: xs) t := by
  have hrw := reads_of_atBoundary h.boundary
  have hcycle2 : Executing moveTable 2 (atOperand i s) := ⟨h.executing.run, h.executing.protocol, rfl⟩
  have hcycle3 : Executing moveTable 3 (movesFrom i src s) := ⟨h.executing.run, h.executing.protocol, rfl⟩
  have haddr : (movesFrom i src s).busAddr = sourceAddress src s := rfl
  obtain ⟨row2, hrow2, happly2⟩ := moveTable_takes_source (i := i) (s := s) hwf
  obtain ⟨row3, hrow3, happly3⟩ := moveTable_takes_value (i := i) (s := s) hwf
  refine h.run_opening (fun _ => rfl) rfl (.cons (presented_read hrw) ?_ (.cons (presented_read hrw) ?_ rest))
  · rw [← happly2]
    exact hcycle2.tick_read hrw (hsrc ▸ hrow2)
  · rw [← happly3]
    exact hcycle3.tick_read hrw hrow3

theorem Fetches.executing_movesTo (h : Fetches i moveTable s) (v : Word) :
    Executing moveTable 4 (movesTo i src v s) := ⟨h.executing.run, h.executing.protocol, rfl⟩

theorem add_two_add_one (a : Word) : a + 2 + 1 = a + 3 := BitVec.add_assoc a 2 1

/-- The table of `MOVE`, to a register (R281). -/
theorem moveTable_run_reg {r : Reg} (h : Fetches i moveTable s) (hwf : src.wellFormed = true)
    (hsrc : s.memRead (s.ip + 1) = src.toWord) (hdst : s.memRead (s.ip + 2) = r.id) :
    CycleRun s
      [fetched i s, atOperand i s, movesFrom i src s, movesTo i src (s.readOperand src) s]
      (openingReads s.ip ++ [.read (s.ip + 1), .read (sourceAddress src s), .read (s.ip + 2)])
      ((s.latch.setReg r (s.readOperand src)).clearScratch.commit (s.ip + 3)) := by
  have hrw := reads_of_atBoundary h.boundary
  have hrow := moveTable_writes_reg (s := movesTo i src (s.readOperand src) s) (regOfId?_id r)
  rw [← hdst] at hrow
  refine moveTable_run_opening h hwf hsrc (.last (presented_read hrw) ?_)
  refine ((h.executing_movesTo _).tick_read hrw hrow).trans ?_
  rw [State.latch, h.word, ← add_two_add_one]
  cases r <;> rfl

/-- The table of `MOVE`, to a cell (R281): both operand words and the source are read before the store. -/
theorem moveTable_run_cell {a : Word} (h : Fetches i moveTable s) (hwf : src.wellFormed = true)
    (hwfa : (MoveOperand.cell a).wellFormed = true) (hsrc : s.memRead (s.ip + 1) = src.toWord)
    (hdst : s.memRead (s.ip + 2) = a) :
    CycleRun s
      [fetched i s, atOperand i s, movesFrom i src s, movesTo i src (s.readOperand src) s,
        movesOut i src (s.readOperand src) a s]
      (openingReads s.ip ++
        [.read (s.ip + 1), .read (sourceAddress src s), .read (s.ip + 2), .write a (s.readOperand src)])
      ((s.latch.memWrite a (s.readOperand src)).settle.clearScratch.commit (s.ip + 3)) := by
  have hrw := reads_of_atBoundary h.boundary
  have hcycle5 : Executing moveTable 5 (movesOut i src (s.readOperand src) a s) :=
    ⟨h.executing.run, h.executing.protocol, rfl⟩
  have hrow : moveTable 4 (movesTo i src (s.readOperand src) s) (s.memRead (s.ip + 2)) =
      some { busAddr := some a, busDataOut := some (s.readOperand src), busRw := some .write } := by
    rw [hdst]
    exact moveTable_writes_cell (regOfId?_of_wellFormed hwfa)
  refine moveTable_run_opening h hwf hsrc (.cons (presented_read hrw) ((h.executing_movesTo _).tick_read hrw hrow)
    (.last (presented_write rfl) ?_))
  refine (hcycle5.tick_write rfl fun _ => rfl).trans ?_
  rw [State.latch, h.word, ← add_two_add_one, State.memWrite_eq, State.memWrite_eq]
  rfl

end Move

/-! ## Every instruction -/

/-- An operand that a word stands for is written back as that word (R105). -/
theorem toWord_ofWord (w : Word) : (MoveOperand.ofWord w).toWord = w := by
  rw [MoveOperand.ofWord, regOfId?]
  by_cases ha : w = Config.regIdA
  · rw [if_pos ha, ha]
    rfl
  by_cases hb : w = Config.regIdB
  · rw [if_neg ha, if_pos hb, hb]
    rfl
  by_cases hx : w = Config.regIdX
  · rw [if_neg ha, if_neg hb, if_pos hx, hx]
    rfl
  · rw [if_neg ha, if_neg hb, if_neg hx]
    rfl

/-- An operand that a word stands for is well-formed: it is a cell only where the word is no register id (R280). -/
theorem wellFormed_ofWord (w : Word) : (MoveOperand.ofWord w).wellFormed = true := by
  rw [MoveOperand.ofWord]
  rcases hid : regOfId? w with _ | r
  · simp [MoveOperand.wellFormed, ← regOfId?_isSome, hid]
  · rfl

/-- What a row of the registry builds is well-formed (R280). -/
theorem build_wellFormed (p q : Word) : ∀ d ∈ registryRows, (d.build p q).wellFormed = true := by
  rw [registryRows, List.forall_mem_append]
  refine ⟨List.map_inj_left.mp rfl, ?_⟩
  simp [moveRows, Instr.wellFormed, wellFormed_ofWord]

/-- What a row of the registry builds has the words it was built from, as many as the row declares (R101, R107). -/
theorem encode_build (p q : Word) : ∀ d ∈ registryRows, encode (d.build p q) = [d.opcode, p, q].take d.length := by
  rw [registryRows, List.forall_mem_append]
  refine ⟨List.map_inj_left.mp rfl, ?_⟩
  simp [moveRows, encode, toWord_ofWord]

/-- An assigned opcode word at `IP` makes the cells from `IP` on the words of the instruction fetched. -/
theorem fetchInstr_wellFormed_holdsInstr {s : State} {d : Descriptor} (hl : lookup (s.memRead s.ip) = some d) :
    s.fetchInstr.wellFormed = true ∧ s.holdsInstr s.fetchInstr := by
  obtain ⟨hmem, hop⟩ := lookup_some hl
  rw [State.fetchInstr, decode_assigned hl]
  refine ⟨build_wellFormed _ _ d hmem, fun k w hk => ?_⟩
  rw [encode_build _ _ d hmem, hop, List.getElem?_take, Option.ite_none_right_eq_some] at hk
  obtain ⟨-, hword⟩ := hk
  match k with
  | 0 => simpa using hword
  | 1 | 2 => exact Option.some.inj hword

theorem encode_getElem?_zero (i : Instr) : (encode i)[0]? = some (opcodeWord i) := by
  cases i <;> rfl

/-- The protocol of an instruction does not depend on its operands, which the protocol reads itself (R107). -/
theorem cycleTable_opcodeWord (i : Instr) : cycleTable (decode (opcodeWord i) 0 0) = cycleTable i := by
  cases i <;> rfl

/-- A choice by a flag that is wanted to be 0. -/
theorem ite_eq_false_flag {α : Type} (b : Bool) (x y : α) : (if b = false then x else y) = if !b then x else y := by
  cases b <;> rfl

/-- From a boundary where the words of a well-formed instruction stand at `IP`, the cycles of its protocol lead to the state
that its meaning answers, and retire the transactions tabulated for it. -/
theorem exec_run {i : Instr} {s : State} (hb : s.atBoundary = true) (hwf : i.wellFormed = true) (hi : s.holdsInstr i) :
    ∃ us t, exec i s.latch = .next t ∧ CycleRun s us (instrStream i s) t := by
  have hword : s.memRead s.ip = opcodeWord i := by simpa using hi 0 _ (encode_getElem?_zero i)
  have h : Fetches i (cycleTable i) s := ⟨hb, hword, by rw [hword, cycleTable_opcodeWord]⟩
  cases i with
  | nop => exact ⟨_, _, rfl, zeroOperandTable_run carries_nop hb h.dispatch⟩
  | setZero | clearZero | setCarry | clearCarry | setNegative | clearNegative | setError | clearError | setOverflow
  | clearOverflow => exact ⟨_, _, rfl, zeroOperandTable_run (carries_putFlag _ _) hb h.dispatch⟩
  | incA | incB | incX | decA | decB | decX => exact ⟨_, _, rfl, zeroOperandTable_run (carries_aluRow _ _ 0) hb h.dispatch⟩
  | loadImmA imm | loadImmB imm | loadImmX imm =>
    exact ⟨_, _, rfl, immediateTable_run (carries_loadRow _) h (hi 1 imm rfl)⟩
  | addAImmediate imm | addBImmediate imm | addXImmediate imm | subAImmediate imm | subBImmediate imm
  | subXImmediate imm => exact ⟨_, _, rfl, immediateTable_run (carries_aluRow _ _) h (hi 1 imm rfl)⟩
  | loadAbsA addr | loadAbsB addr | loadAbsX addr =>
    exact ⟨_, _, rfl, absoluteTable_run (carries_loadRow _) h (hi 1 addr rfl)⟩
  | addAAbsolute addr | addBAbsolute addr | addXAbsolute addr | subAAbsolute addr | subBAbsolute addr
  | subXAbsolute addr => exact ⟨_, _, rfl, absoluteTable_run (carries_aluRow _ _) h (hi 1 addr rfl)⟩
  | pushA | pushB | pushX => exact ⟨_, _, rfl, pushTable_run h⟩
  | popA | popB | popX => exact ⟨_, _, rfl, popTable_run h⟩
  | call target => exact ⟨_, _, rfl, callTable_run h (hi 1 target rfl)⟩
  | ret => exact ⟨_, _, rfl, returnTable_run h⟩
  | jump target => exact ⟨_, _, rfl, branchTable_run (cond := fun _ => true) h (hi 1 target rfl) rfl⟩
  | jumpIfZero target | jumpIfCarry target | jumpIfNegative target | jumpIfError target | jumpIfOverflow target =>
    exact ⟨_, _, rfl, branchTable_run h (hi 1 target rfl) rfl⟩
  | jumpIfNotZero target | jumpIfNotCarry target | jumpIfNotNegative target | jumpIfNotError target
  | jumpIfNotOverflow target =>
    exact ⟨_, _, rfl, branchTable_run (cond := fun f => !f.get _) h (hi 1 target rfl) (ite_eq_false_flag _ _ _)⟩
  | move src dst =>
    obtain ⟨hsrc, hdst⟩ : src.wellFormed = true ∧ dst.wellFormed = true := by simpa [Instr.wellFormed] using hwf
    have hstream : openingReads s.ip ++ sourceReads s.ip src =
        openingReads s.ip ++ [.read (s.ip + 1), .read (sourceAddress src s)] := by cases src <;> rfl
    have hvalue : s.latch.readOperand src = s.readOperand src := by cases src <;> simp
    rw [exec, execMove, sequential, hvalue, instrStream, hstream]
    cases dst with
    | reg r => exact ⟨_, _, rfl, moveTable_run_reg h hsrc (hi 1 _ rfl) (hi 2 _ rfl)⟩
    | cell a => exact ⟨_, _, rfl, moveTable_run_cell h hsrc hdst (hi 1 _ rfl) (hi 2 _ rfl)⟩

/-- From every boundary, the cycles of the instruction at `IP` lead to the state that one whole instruction answers, and retire
its transactions (R139). An unassigned opcode word runs as `NOP` (R112). -/
theorem fetchInstr_run {s : State} (hb : s.atBoundary = true) :
    ∃ us t, exec s.fetchInstr s.latch = .next t ∧ CycleRun s us (instrStream s.fetchInstr s) t := by
  rcases hl : lookup (s.memRead s.ip) with _ | d
  · have hnop : s.fetchInstr = .nop := decode_unassigned hl _ _
    have hd : cycleTable (decode (s.memRead s.ip) 0 0) = cycleTable .nop := by rw [decode_unassigned hl]
    rw [hnop]
    exact ⟨_, _, rfl, zeroOperandTable_run carries_nop hb hd⟩
  · obtain ⟨hwf, hi⟩ := fetchInstr_wellFormed_holdsInstr hl
    exact exec_run hb hwf hi

/-! ## Level A and Level C -/

theorem jumpReads_length (taken : Bool) (a0 : Word) : (jumpReads taken a0).length = if taken then 3 else 2 := by
  cases taken <;> rfl

/-- There is one transaction for each cycle (R72, R346). -/
theorem instrStream_length (i : Instr) (s : State) : (instrStream i s).length = instrCycles i s := by
  cases i with
  | jumpIfZero _ | jumpIfCarry _ | jumpIfNegative _ | jumpIfError _ | jumpIfOverflow _ => exact jumpReads_length _ _
  | jumpIfNotZero _ | jumpIfNotCarry _ | jumpIfNotNegative _ | jumpIfNotError _ | jumpIfNotOverflow _ =>
    exact (jumpReads_length _ _).trans (ite_bool_swap _ 2 3).symm
  | move src dst => cases src <;> cases dst <;> rfl
  | _ => rfl

/-- Settles O44: the run of the instruction's cycles ends where its meaning ends, and wait states do not upset it. -/
theorem stepIsTheCompositionOfItsTicks : Obligations.StepIsTheCompositionOfItsTicks := by
  intro s ls hl hb hrst hn
  obtain ⟨us, t, hexec, hrun⟩ := fetchInstr_run hb
  have hlatch : s.latch.atBoundary = true := hb
  obtain ⟨t', ht', hbt⟩ := (exec_shape s.fetchInstr).keeps_boundary hlatch
  obtain rfl : t = t' := Host.Outcome.next.inj (hexec.symm.trans ht')
  rw [← instrStream_length] at hn
  exact ⟨t, hrun.tickLines hrst hn, (step_of_atBoundary hb hl).trans hexec, hbt⟩

/-- Settles O46: the run of the instruction's cycles retires the tabulated transactions, one a cycle. -/
theorem busTraceIsTheStream : Obligations.BusTraceIsTheStream := by
  intro s hb
  obtain ⟨us, t, -, hrun⟩ := fetchInstr_run hb
  refine ⟨?_, instrStream_length _ _⟩
  rw [← instrStream_length]
  exact hrun.busTrace

end Sys2Proof.Machine
end

section
/-! PROOFS. The encoding (R100 to R106, R110, R112, R280): decoder and encoder undo each other, the opcode word alone tells the
length, and a step runs the instruction that the cells at `IP` encode. Both directions rest on one fact about the decoder,
`decodeList_assigned_iff`: which operand words and which rest a row of the registry makes of a list. -/

namespace Sys2Proof.Machine

open Sys2Proof.Claims

/-! ## The decoder over lists -/

/-- All that the decoder answers for an assigned opcode word: it needs the operand words that the row declares, gives the row
the next two words, and leaves what follows the operand words (R101, R107). -/
theorem decodeList_assigned_iff {w : Word} {d : Descriptor} {ws : List Word} {i : Instr} {rest : List Word}
    (hl : lookup w = some d) :
    decodeList (w :: ws) = .ok (i, rest) ↔
      d.length ≤ ws.length + 1 ∧ d.build (ws.getD 0 0) (ws.getD 1 0) = i ∧ ws.drop (d.length - 1) = rest := by
  simp only [decodeList, hl]
  split
  · have hshort : ¬ d.length ≤ ws.length + 1 := by omega
    simp [hshort]
  · have hlong : d.length ≤ ws.length + 1 := by omega
    simp [hlong]

/-- Settles O2: each opcode word finds its row, which builds the instruction from the operand words of its format. -/
theorem decodeOfEncodeIsTheInstruction : Obligations.DecodeOfEncodeIsTheInstruction := by
  intro i rest hwf
  cases i with
  | nop | setZero | clearZero | setCarry | clearCarry | setNegative | clearNegative | setError | clearError | setOverflow
  | clearOverflow | incA | incB | incX | decA | decB | decX | pushA | pushB | pushX | popA | popB | popX | ret =>
    exact (decodeList_assigned_iff rfl).mpr ⟨Nat.le_add_left 1 _, rfl, rfl⟩
  | loadImmA w | loadImmB w | loadImmX w | addAImmediate w | addBImmediate w | addXImmediate w | subAImmediate w
  | subBImmediate w | subXImmediate w | loadAbsA w | loadAbsB w | loadAbsX w | addAAbsolute w | addBAbsolute w
  | addXAbsolute w | subAAbsolute w | subBAbsolute w | subXAbsolute w | call w | jump w | jumpIfZero w | jumpIfNotZero w
  | jumpIfCarry w | jumpIfNotCarry w | jumpIfNegative w | jumpIfNotNegative w | jumpIfError w | jumpIfNotError w
  | jumpIfOverflow w | jumpIfNotOverflow w =>
    exact (decodeList_assigned_iff rfl).mpr ⟨Nat.le_add_left 2 _, rfl, rfl⟩
  | move src dst =>
    obtain ⟨hsrc, hdst⟩ : src.wellFormed = true ∧ dst.wellFormed = true := by simpa [Instr.wellFormed] using hwf
    have hbuild : Instr.move (.ofWord src.toWord) (.ofWord dst.toWord) = .move src dst := by
      rw [MoveOperand.ofWord_toWord hsrc, MoveOperand.ofWord_toWord hdst]
    exact (decodeList_assigned_iff rfl).mpr ⟨Nat.le_add_left 3 _, hbuild, rfl⟩

/-! ## The words of a row -/

/-- Every row declares one, two or three words (R100). -/
theorem length_of_mem_registryRows :
    ∀ d ∈ registryRows, d.length = 1 ∨ d.length = 2 ∨ d.length = 3 := by
  decide

/-- The first words of a list, as many as an instruction of `n` words has, and what follows them. -/
theorem take_append_drop_operands {n : Nat} (hn : n = 1 ∨ n = 2 ∨ n = 3) (w : Word) {ws : List Word}
    (hlen : n ≤ ws.length + 1) :
    [w, ws.getD 0 0, ws.getD 1 0].take n ++ ws.drop (n - 1) = w :: ws := by
  rcases hn with rfl | rfl | rfl
  · rfl
  · match ws, hlen with
    | _ :: _, _ => rfl
  · match ws, hlen with
    | _ :: _ :: _, _ => rfl

/-- Settles O3: what a row builds has the words it was built from, and `MOVE` operands built from words are well formed. -/
theorem encodeOfDecodeIsTheWords : Obligations.EncodeOfDecodeIsTheWords := by
  intro w ws i rest hassigned hdecode
  obtain ⟨d, hl⟩ := Option.isSome_iff_exists.mp hassigned
  obtain ⟨hmem, hop⟩ := lookup_some hl
  obtain ⟨hlen, rfl, rfl⟩ := (decodeList_assigned_iff hl).mp hdecode
  refine ⟨?_, build_wellFormed _ _ d hmem⟩
  rw [encode_build _ _ d hmem, hop, take_append_drop_operands (length_of_mem_registryRows d hmem) w hlen]

/-- The length that an assigned opcode word tells is the one its row declares (R106). -/
theorem decodeLength_assigned {w : Word} {d : Descriptor} (hl : lookup w = some d) : decodeLength w = d.length := by
  rw [decodeLength, hl]

/-- An unassigned opcode word has length 1 (R106). -/
theorem decodeLength_unassigned {w : Word} (hl : lookup w = none) : decodeLength w = 1 := by rw [decodeLength, hl]

/-- The encoding of what a row builds has the declared length (R107). -/
theorem encode_build_length {d : Descriptor} (hmem : d ∈ registryRows) (p q : Word) :
    (encode (d.build p q)).length = d.length := by
  rw [encode_build p q d hmem]
  rcases length_of_mem_registryRows d hmem with h | h | h <;> rw [h] <;> rfl

/-- Settles O4, by whether the opcode word has a row. -/
theorem opcodeWordTellsTheLength : Obligations.OpcodeWordTellsTheLength := by
  intro w p q
  rcases hl : lookup w with _ | d
  · have hlength := decodeLength_unassigned hl
    exact ⟨nofun, fun _ => hlength, .inl hlength⟩
  · obtain ⟨hmem, -⟩ := lookup_some hl
    rw [decodeLength_assigned hl, decode_assigned hl, encode_build_length hmem]
    exact ⟨fun _ => rfl, nofun, length_of_mem_registryRows d hmem⟩

/-- What an assigned opcode decodes to, from its row and from what the row builds. -/
theorem decode_eq_of_build {w p q : Word} {d : Descriptor} {i : Instr} (hl : lookup w = some d) (hbuild : d.build p q = i) :
    decode w p q = i := (decode_assigned hl p q).trans hbuild

/-- Settles O1: each word finds its row, and the row builds the instruction. -/
theorem tableWordsDecode : Obligations.TableWordsDecode := fun _ _ =>
  ⟨decode_eq_of_build rfl rfl, decode_eq_of_build rfl rfl, decode_eq_of_build rfl rfl, decode_eq_of_build rfl rfl,
    decode_eq_of_build rfl rfl, decode_eq_of_build rfl rfl, decode_eq_of_build rfl rfl, decode_eq_of_build rfl rfl,
    decode_eq_of_build rfl rfl⟩

/-! ## Steps at the words of an instruction -/

/-- Settles O7: the step reads the same three cells. -/
theorem stepRunsTheDecodedInstruction : Obligations.StepRunsTheDecodedInstruction := by
  intro s i rest hl hb hdecode
  have hfetch : s.fetchInstr = i := decode_of_decodeList hdecode
  rw [step_of_atBoundary hb hl, hfetch, State.latch]

/-- No instruction has more than three words (R100). -/
theorem encode_length_le_three (i : Instr) : (encode i).length ≤ 3 := by
  cases i <;> exact Nat.le_of_ble_eq_true rfl

/-- The cells that hold an instruction are its words, and then whatever follows them (R101). -/
theorem State.holdsInstr.encode_prefix {s : State} {i : Instr} (h : s.holdsInstr i) :
    encode i <+: [s.memRead s.ip, s.memRead (s.ip + 1), s.memRead (s.ip + 2)] := by
  rw [List.prefix_iff_getElem?]
  intro k hk
  have hword := h k _ (List.getElem?_eq_getElem hk)
  have hlen := encode_length_le_three i
  match k with
  | 0 => simpa using hword
  | 1 | 2 => exact congrArg some hword
  | k + 3 => omega

/-- Settles O8: the three cells are the encoded words and a rest, so they decode to the instruction. -/
theorem stepRunsTheInstructionHeldAtIp : Obligations.StepRunsTheInstructionHeldAtIp := by
  intro s i hwf hl hb hi
  obtain ⟨rest, hrest⟩ := hi.encode_prefix
  have hword : s.memRead s.ip = opcodeWord i := by simpa using hi 0 _ (encode_getElem?_zero i)
  have hdecode := decodeOfEncodeIsTheInstruction i rest hwf
  rw [hrest] at hdecode
  rw [stepRunsTheDecodedInstruction s i rest hl hb hdecode, hword, opcodeWord]

/-! ## Unassigned opcodes -/

/-- A commit at a boundary, where `instr_state` is 0 already (R44, R136). -/
theorem latch_commit_of_atBoundary {s : State} (hb : s.atBoundary = true) (next : Word) :
    s.latch.commit next = { s with ir := s.memRead s.ip, ip := next, busAddr := next } := by
  obtain ⟨-, hi, -⟩ := atBoundary_iff.mp hb
  rw [State.commit, ← hi]
  rfl

/-- Settles O10: an unassigned word decodes to `NOP` and dispatches to its table, whose two cycles read the opcode cell. -/
theorem unassignedOpcodeActsAsNop : Obligations.UnassignedOpcodeActsAsNop := by
  intro w p q hw
  have hdecode : ∀ p q, decode w p q = .nop := decode_unassigned (lookup_none hw)
  refine ⟨hdecode p q, fun s hb hword => ?_⟩
  subst hword
  have hnop : s.fetchInstr = .nop := hdecode _ _
  have hrun := zeroOperandTable_run carries_nop hb (congrArg cycleTable (hdecode 0 0))
  rw [← latch_commit_of_atBoundary hb]
  refine ⟨fun hl => ?_, hrun.tickLines (ls := [Lines.quiet, Lines.quiet]) (by decide) rfl, hrun.busTrace⟩
  rw [step_of_atBoundary hb hl, hnop]
  rfl

/-! ## The end of a program -/

/-- The state in which a program has ended holds the words of a jump to itself (R119, R341). -/
theorem State.ended.fetchInstr {s : State} {e : Word} (h : s.ended e) : s.fetchInstr = .jump e := by
  obtain ⟨-, rfl, hop, htarget⟩ := h
  rw [State.fetchInstr, hop, htarget]
  exact decode_eq_of_build rfl rfl

/-- A step of an ended program jumps to where it is: `IR` is latched, and nothing else changes (R341). -/
theorem State.ended.step {s : State} {e : Word} (h : s.ended e) (hl : s.lines = []) :
    Machine.step s = .next s.latch := by
  have hjump := h.fetchInstr
  obtain ⟨hb, hip, -⟩ := h
  obtain ⟨-, -, haddr, -⟩ := atBoundary_iff.mp hb
  rw [step_of_atBoundary hb hl, hjump]
  have hcommit : s.latch.commit e = s.latch := by
    rw [latch_commit_of_atBoundary hb, State.latch]
    simp [← hip, ← haddr]
  exact congrArg Host.Outcome.next hcommit

/-- Settles O56, by induction on the number of steps: each latches the opcode word of the jump, which is outside the Level A
state (R8, R29). -/
theorem endedProgramStaysEnded : Obligations.EndedProgramStaysEnded := by
  intro s e n hl hended
  induction n generalizing s with
  | zero => exact ⟨s, rfl, hended, rfl⟩
  | succ n ih =>
    obtain ⟨t, hrun, ht, harch⟩ := ih s.latch hl hended
    exact ⟨t, (core_run_succ (hended.step hl)).trans hrun, ht, harch⟩

end Sys2Proof.Machine
end

section
/-! PROOFS. The engine: what the ALU answers (R140, R142), the fetch cycle (R132), the bound on the cycles of an instruction
(R137, R345) and the stack requests of the cycle tables (R145 to R147). -/

namespace Sys2Proof.Machine

/-! ## ALU -/

/-- An undefined operation answers 0 and asks for the flags of an undefined operation (R140). -/
@[simp] theorem alu_other (a b : Word) : alu .other a b = ⟨0, .undefinedOp⟩ := rfl

/-- Settles O34: the four results are word arithmetic read as naturals, and the flags are those of the answer. -/
theorem aluComputesResultAndFlags : Obligations.AluComputesResultAndFlags := by
  refine fun a b => ⟨BitVec.toNat_add a b, ?sub, BitVec.toNat_add a 1, ?dec, fun op hop => ?flags, rfl,
    fun f => f.apply_undefinedOp⟩
  case sub => rw [alu_sub, aluAnswer_result, BitVec.toNat_sub, Nat.add_comm]
  case dec =>
    rw [alu_dec, aluAnswer_result, BitVec.toNat_sub, Nat.add_comm]
    rfl
  case flags =>
    rw [alu_update_defined hop, BitVec.msb_eq_toInt]
    rfl

/-- Settles O35: the answer of an undefined operation is not written to the register, and its flags are ERROR alone (R142). -/
theorem undefinedAluOperationOnlySetsError : Obligations.UndefinedAluOperationOnlySetsError := by
  intro s r v
  have hkept : (alu .other (s.getReg r) v).commits ≠ true := fun h => (alu_commits_iff .other _ _).mp h rfl
  rw [State.aluReg, if_neg hkept, alu_other, Flags.apply_undefinedOp]

/-! ## The fetch cycle -/

/-- Settles O51: the un-stalled fetch cycle and the wait state. -/
theorem fetchCycleLatchesTheOpcode : Obligations.FetchCycleLatchesTheOpcode := fun s hb =>
  ⟨tick_boundary hb, tick_stall s⟩

/-! ## The longest instruction -/

/-- The first of several un-stalled ticks. -/
theorem ticks_succ_of_tick {n : Nat} {s t : State} (h : tick Lines.quiet s = .next t) : ticks (n + 1) s = ticks n t := by
  rw [ticks, List.replicate_succ, tickLines_cons h, ticks]

/-- After the reset sequence an un-stalled tick ends at a boundary or counts a cycle. The invariant also holds in states that
no instruction leads to, such as cycle 2 of a branch whose condition is false: there `cyclesLeft` is 0, and only the cycle
counter is a measure. -/
theorem tick_commits_or_counts {s : State} (hinv : s.protocolInv = true) (hrun : s.resetState = .run) :
    ∃ t, tick Lines.quiet s = .next t ∧ (t.atBoundary = true ∨
      t.protocolInv = true ∧ t.resetState = .run ∧ t.instrState.toNat = s.instrState.toNat + 1) := by
  obtain ⟨t, ht, hinv'⟩ := tick_keeps_protocolInv Lines.quiet hinv
  refine ⟨t, ht, ?_⟩
  by_cases hi : s.instrState = 0
  · obtain rfl : s.fetchCycle (s.memRead s.ip) = t :=
      Host.Outcome.next.inj ((tick_boundary ((protocolInv_fetch hrun hi).mp hinv)).symm.trans ht)
    exact .inr ⟨hinv', hrun, by rw [hi]; rfl⟩
  · obtain ⟨u, hu, -, hrun', -, hp⟩ := tick_execute_proceeds hinv hrun hi
    obtain rfl : u = t := Host.Outcome.next.inj (hu.symm.trans ht)
    cases hp with
    | commits hb => exact .inl hb
    | goesOn hcount =>
      have hfive := instrState_le_five hinv hrun
      exact .inr ⟨hinv', hrun', by rw [hcount]; exact toNat_instrState_succ rfl (by omega)⟩

/-- Cycle 5 is the last one of any protocol, so `m` ticks are enough from cycle `6 - m` on. -/
theorem boundary_within {m : Nat} {s : State} (hinv : s.protocolInv = true) (hrun : s.resetState = .run)
    (hm : 6 ≤ s.instrState.toNat + m) :
    ∃ n t, 1 ≤ n ∧ n ≤ m ∧ ticks n s = .next t ∧ t.atBoundary = true := by
  induction m generalizing s with
  | zero =>
    have hfive := instrState_le_five hinv hrun
    omega
  | succ m ih =>
    obtain ⟨t, ht, hb | ⟨hinv', hrun', hcount⟩⟩ := tick_commits_or_counts hinv hrun
    · exact ⟨1, t, Nat.le_refl 1, by omega, ticks_succ_of_tick ht, hb⟩
    · obtain ⟨n, u, -, hle, hu, hb⟩ := ih hinv' hrun' (by omega)
      exact ⟨n + 1, u, by omega, by omega, (ticks_succ_of_tick ht).trans hu, hb⟩

/-- Settles O49: the cycle counter goes from 0, the fetch, to 5 at most. -/
theorem everyInstructionRetiresWithinSixCycles : Obligations.EveryInstructionRetiresWithinSixCycles :=
  fun _ hinv hrun => boundary_within hinv hrun (Nat.le_add_left 6 _)

/-! ## Stack requests -/

/-- A table none of whose rows makes a Stack Unit request. -/
def RequestsNothing (table : CycleTable) : Prop :=
  ∀ (k : Nat) (s : State) (d : Word) (row : CycleRow), table k s d = some row → row.stack = none

/-- A table in which a Stack Unit request is followed by the row that commits (R145 to R147). -/
def CommitsAfterRequest (table : CycleTable) : Prop :=
  ∀ (k : Nat) (s : State) (d : Word) (row : CycleRow), table k s d = some row → row.stack ≠ none →
    row.commit = none ∧
    ∀ (s' : State) (d' : Word), ∃ row', table (k + 1) s' d' = some row' ∧ row'.stack = none ∧ row'.commit ≠ none

theorem RequestsNothing.commitsAfterRequest {table : CycleTable} (h : RequestsNothing table) : CommitsAfterRequest table :=
  fun k s d row hrow hreq => absurd (h k s d row hrow) hreq

@[simp] theorem CycleRow.withReg_stack (row : CycleRow) (r : Reg) (v : Word) : (row.withReg r v).stack = row.stack := by
  cases r <;> rfl

@[simp] theorem CycleRow.withReg_commit (row : CycleRow) (r : Reg) (v : Word) : (row.withReg r v).commit = row.commit := by
  cases r <;> rfl

/-! ### The tables without a request -/

theorem zeroOperandTable_requestsNothing {effect : State → CycleRow} (h : ∀ s, (effect s).KeepsLines) :
    RequestsNothing (zeroOperandTable effect) := by
  intro k s d row hrow
  simp only [zeroOperandTable] at hrow
  split at hrow <;> cases hrow
  exact (h s).stack

theorem immediateTable_requestsNothing {effect : State → Word → CycleRow} (h : ∀ s v, (effect s v).KeepsLines) :
    RequestsNothing (immediateTable effect) := by
  intro k s d row hrow
  simp only [immediateTable] at hrow
  split at hrow <;> cases hrow
  · rfl
  · exact (h s d).stack

theorem absoluteTable_requestsNothing {effect : State → Word → CycleRow} (h : ∀ s v, (effect s v).KeepsLines) :
    RequestsNothing (absoluteTable effect) := by
  intro k s d row hrow
  simp only [absoluteTable] at hrow
  split at hrow <;> cases hrow
  · rfl
  · rfl
  · exact (h s d).stack

theorem branchTable_requestsNothing (cond : Flags → Bool) : RequestsNothing (branchTable cond) := by
  intro k s d row hrow
  simp only [branchTable] at hrow
  split at hrow <;> cases hrow
  · split <;> rfl
  · rfl

theorem moveTable_requestsNothing : RequestsNothing moveTable := by
  rintro (_ | _ | _ | _ | _ | _ | k) s d row hrow
  case succ.succ.succ.succ.zero =>
    rcases hd : regOfId? d with _ | r
    · cases (moveTable_writes_cell hd).symm.trans hrow
      rfl
    · cases (moveTable_writes_reg hd).symm.trans hrow
      exact CycleRow.withReg_stack _ r _
  all_goals cases hrow
  all_goals rfl

/-! ### The tables with a request -/

theorem pushTable_commitsAfterRequest (r : Reg) : CommitsAfterRequest (pushTable r) := by
  intro k s d row hrow hreq
  simp only [pushTable] at hrow
  split at hrow <;> cases hrow
  · exact ⟨rfl, fun s' _ => ⟨settleRow (s'.ip + 1), rfl, rfl, Option.some_ne_none _⟩⟩
  · exact absurd rfl hreq

theorem popTable_commitsAfterRequest (r : Reg) : CommitsAfterRequest (popTable r) := by
  intro k s d row hrow hreq
  simp only [popTable] at hrow
  split at hrow <;> cases hrow
  · refine ⟨rfl, fun s' d' => ⟨(settleRow (s'.ip + 1)).withReg r d', rfl, CycleRow.withReg_stack _ r _, ?_⟩⟩
    rw [CycleRow.withReg_commit]
    exact Option.some_ne_none _
  · exact absurd (CycleRow.withReg_stack _ r _) hreq

theorem returnTable_commitsAfterRequest : CommitsAfterRequest returnTable := by
  intro k s d row hrow hreq
  simp only [returnTable] at hrow
  split at hrow <;> cases hrow
  · exact ⟨rfl, fun _ d' => ⟨settleRow d', rfl, rfl, Option.some_ne_none _⟩⟩
  · exact absurd rfl hreq

theorem callTable_commitsAfterRequest : CommitsAfterRequest callTable := by
  intro k s d row hrow hreq
  simp only [callTable] at hrow
  split at hrow <;> cases hrow
  · exact absurd rfl hreq
  · exact ⟨rfl, fun s' _ => ⟨{ settleRow s'.tmp1 with tmp1 := some 0 }, rfl, rfl, Option.some_ne_none _⟩⟩
  · exact absurd rfl hreq

/-! ### All tables -/

theorem ProtocolShape.commitsAfterRequest {table : CycleTable} {shape : Nat → State → Bool} {cycles : State → Nat}
    (h : ProtocolShape table shape cycles) : CommitsAfterRequest table := by
  cases h with
  | zeroOperand h => exact (zeroOperandTable_requestsNothing h).commitsAfterRequest
  | immediate h => exact (immediateTable_requestsNothing h).commitsAfterRequest
  | absolute h => exact (absoluteTable_requestsNothing h).commitsAfterRequest
  | push r => exact pushTable_commitsAfterRequest r
  | pop r => exact popTable_commitsAfterRequest r
  | ret => exact returnTable_commitsAfterRequest
  | call => exact callTable_commitsAfterRequest
  | branch cond => exact (branchTable_requestsNothing cond).commitsAfterRequest
  | move => exact moveTable_requestsNothing.commitsAfterRequest

/-- Settles O50: only the push, pop, return and call tables request, each in the cycle before its last. -/
theorem noStackRequestBeforeTheLastIsAccepted : Obligations.NoStackRequestBeforeTheLastIsAccepted :=
  fun i => (protocol_shape i).commitsAfterRequest

end Sys2Proof.Machine
end

section
/-! PROOFS. What the results of every family have in common: the whole frame of an instruction, from the row of its meaning, and
its cycle protocol, from the run of its cycles. -/

namespace Sys2Proof.Machine

open Sys2Proof.Claims

/-! ## The frame of an instruction -/

/-- What holds of the answer of a meaning, said of a state that it answers. -/
theorem of_exists_next {p : State → Prop} {m : Answer} {t : State} (ht : m = .next t) (h : ∃ u, m = .next u ∧ p u) :
    p t := by
  obtain ⟨u, hu, hp⟩ := h
  rwa [Host.Outcome.next.inj (ht.symm.trans hu)]

/-- No meaning writes the registers outside of the instruction set, the parameters or the scheduled lines. -/
theorem HasFootprint.sameRest {m : State → Answer} {fp : Footprint} (h : HasFootprint m fp) (s : State) :
    ∃ t, m s = .next t ∧ SameRest s t := by
  cases h with
  | nop | flag | load | loadAbsolute | alu | aluAbsolute | push | pop | call | ret | jump | branch | moveToReg | moveToCell =>
    exact ⟨_, rfl, by simp [SameRest]⟩

/-- All that the row of a meaning says of the state that it answers. -/
theorem HasFootprint.outcome {m : State → Answer} {fp : Footprint} (h : HasFootprint m fp) {s t : State}
    (ht : m s = .next t) :
    CommitsTo t ((fp.transferTarget s).getD (s.ip + BitVec.ofNat 32 fp.words)) ∧ t.sp = fp.nextSp s ∧
      Frame s t fp.regsWritten fp.flagsWritten (fp.storeAddress s) := by
  obtain ⟨hregs, hsp⟩ := of_exists_next ht (h.sameRegs_nextSp s)
  have hflags := of_exists_next ht (h.sameFlags s)
  have hmemory := of_exists_next ht (h.sameMemory s)
  exact ⟨of_exists_next ht (h.commitsTo s), hsp, hregs, hflags, hmemory, of_exists_next ht (h.sameRest s)⟩

/-! ## `IR` -/

/-- A state with `IR` replaced, as the fetch does (R29). -/
def withIr (w : Word) (s : State) : State := { s with ir := w }

/-- Replacing `IR` is passive. -/
theorem passive_withIr (w : Word) : Passive (withIr w) where
  ip _ := rfl
  sp _ := rfl
  getReg _ r := by cases r <;> rfl
  memRead _ _ := rfl
  commit _ _ := rfl
  settle _ := rfl
  clearScratch _ := rfl
  clearTmp1 _ := rfl
  setReg _ r _ := by cases r <;> rfl
  memWrite s a v := by by_cases h : Params.maps s.params a = true <;> simp [State.memWrite, withIr, h]
  withSp _ _ := rfl

/-- A passive update that neither reads nor writes the flags makes no difference to a meaning of any shape. -/
theorem ExecShape.ignores {m : State → Answer} (hm : ExecShape m) {u : State → State} (hu : Passive u)
    (hget : ∀ s, (u s).flags = s.flags) (hput : ∀ s f, { u s with flags := f } = u { s with flags := f }) (s : State) :
    m (u s) = mapNext u (m s) := by
  have hload (r : Reg) (v : Word) : (u s).loadReg r v = u (s.loadReg r v) := hu.loadReg (by rw [hget, hput])
  have halu (op : AluOp) (r : Reg) (v : Word) : (u s).aluReg op r v = u (s.aluReg op r v) :=
    hu.aluReg fun _ _ => by rw [hget, hput]
  cases hm with
  | nop => exact hu.sequential rfl
  | flag f b => exact hu.sequential (by rw [State.putFlag, hget, hput, State.putFlag])
  | load r v => exact hu.sequential (hload r v)
  | loadAbsolute r a => exact hu.sequential (by rw [hu.absolute, hload])
  | alu words op r v => exact hu.sequential (halu op r v)
  | aluAbsolute op r a => exact hu.sequential (by rw [hu.absolute, halu])
  | push r => exact hu.pushShape r s
  | pop r => exact hu.popShape r s
  | call target => exact hu.execCall target s
  | ret => exact hu.execRet s
  | jump target => exact hu.execJump target s
  | branch => exact hu.jumpShape (by rw [hget])
  | move src dst => exact hu.execMove src dst s

/-- The words of an instruction at `IP` begin with its opcode word. -/
theorem State.holdsInstr.opcodeWord {s : State} {i : Instr} (h : s.holdsInstr i) : s.memRead s.ip = opcodeWord i := by
  simpa using h 0 _ (encode_getElem?_zero i)

/-- An instruction answers the same after its fetch as without it, but for the opcode word in `IR`. -/
theorem exec_latch {i : Instr} {s t : State} (hi : s.holdsInstr i) (ht : exec i s = .next t) :
    exec i s.latch = .next { t with ir := opcodeWord i } := by
  have hlatch : s.latch = withIr (opcodeWord i) s := by rw [State.latch, hi.opcodeWord, withIr]
  rw [hlatch, (exec_shape i).ignores (passive_withIr _) (fun _ => rfl) (fun _ _ => rfl), ht, mapNext, withIr]

/-! ## The cycle protocol -/

/-- The listed states of a run are those after each tick but the last. -/
theorem CycleRun.ticks_inside {s t : State} {us : List State} {xs : List Transaction} (h : CycleRun s us xs t) {k : Nat}
    {u : State} (hk : us[k]? = some u) : ticks (k + 1) s = .next u := by
  induction h generalizing k with
  | last => cases hk
  | cons hx hu hrun ih =>
    rw [ticks_succ_of_tick hu]
    cases k with
    | zero =>
      cases hk
      rfl
    | succ k => exact ih hk

/-- There is one transaction for each tick of a run. -/
theorem CycleRun.length {s t : State} {us : List State} {xs : List Transaction} (h : CycleRun s us xs t) :
    xs.length = us.length + 1 := by
  induction h with
  | last => rfl
  | cons _ _ _ ih => rw [List.length_cons, ih, List.length_cons]

/-- The state after all ticks of a run. -/
theorem CycleRun.ticks_all {s t : State} {us : List State} {xs : List Transaction} (h : CycleRun s us xs t) :
    ticks (us.length + 1) s = .next t := by
  induction h with
  | last hx ht => exact (ticks_succ_of_tick ht).trans rfl
  | cons hx hu hrun ih => rw [ticks_succ_of_tick hu, List.length_cons, ih]

/-- The cycle protocol of an instruction, from a run of its cycles to what its meaning answers after the fetch. -/
theorem retiresIn_of_run {i : Instr} {s t : State} {us : List State} {xs : List Transaction} (ht : exec i s = .next t)
    (hrun : s.atBoundary = true → s.holdsInstr i → ∃ u, exec i s.latch = .next u ∧ CycleRun s us xs u) :
    RetiresIn i us xs s t := by
  intro hb hi
  obtain ⟨u, hu, hcycles⟩ := hrun hb hi
  obtain rfl := Host.Outcome.next.inj (hu.symm.trans (exec_latch hi ht))
  refine ⟨fun k v hk => hcycles.ticks_inside hk, hcycles.ticks_all, ?_⟩
  rw [← hcycles.length]
  exact hcycles.busTrace

end Sys2Proof.Machine
end

section
/-! PROOFS. The zero-operand family (R170 to R187): `NOP`, the flag instructions, increment and decrement. Each is one operation of
the state, and `ZeroOperand.outcome` says once what they have in common. -/

namespace Sys2Proof.Machine

open Sys2Proof.Claims

/-! ## Zero-operand instructions -/

/-- A zero-operand instruction (R170): one operation of the state, which its cycle table carries out in cycle 1, and which
leaves the bus lines and the scratch cells alone. -/
structure ZeroOperand (i : Instr) (row : State → CycleRow) (op : State → State) : Prop where
  meaning : exec i = sequential 1 op
  table : cycleTable i = zeroOperandTable row
  carries : Carries row op
  lines : ∀ s, SameLines s (op s)

section ZeroOperand

variable {i : Instr} {row : State → CycleRow} {op : State → State} {s t : State}

/-- The opcode word is read twice, and the second of the two cycles commits. -/
theorem ZeroOperand.retiresIn (h : ZeroOperand i row op) (ht : exec i s = .next t) :
    RetiresIn i [fetched i s] [.read s.ip, .read s.ip] s t := by
  refine retiresIn_of_run ht fun hb hi => ⟨_, congrFun h.meaning s.latch, ?_⟩
  have hd : cycleTable (decode (s.memRead s.ip) 0 0) = zeroOperandTable row := by
    rw [hi.opcodeWord, cycleTable_opcodeWord, h.table]
  have hrun := zeroOperandTable_run h.carries hb hd
  rwa [hi.opcodeWord] at hrun

/-- All that the zero-operand instructions have in common; the row of the meaning says which registers and flags the frame leaves
out. -/
theorem ZeroOperand.outcome (h : ZeroOperand i row op) {regs : List Reg} {flags : List Flag}
    (hfp : HasFootprint (sequential 1 op) { regsWritten := regs, flagsWritten := flags }) (ht : exec i s = .next t) :
    CommitsTo t (s.ip + 1) ∧ t.sp = s.sp ∧ Frame s t regs flags none ∧ SameLines s t ∧
      RetiresIn i [fetched i s] [.read s.ip, .read s.ip] s t := by
  have hop : sequential 1 op s = .next t := h.meaning ▸ ht
  obtain ⟨hcommit, hsp, hframe⟩ := hfp.outcome hop
  have hlines : SameLines s t := by
    rw [sequential_next_iff.mp hop]
    exact h.lines s
  exact ⟨hcommit, hsp, hframe, hlines, h.retiresIn ht⟩

end ZeroOperand

/-! ## `NOP` -/

theorem zeroOperand_nop : ZeroOperand .nop (fun _ => {}) id := ⟨rfl, rfl, carries_nop, fun _ => ⟨rfl, rfl, rfl, rfl⟩⟩

/-- Settles O12: `NOP` is the zero-operand instruction of the operation that does nothing (R171). -/
theorem nopOnlyAdvancesIp : Obligations.NopOnlyAdvancesIp :=
  ⟨rfl, fun _ p q hw => decode_unassigned (lookup_none hw) p q, fun s =>
    ⟨s.commit (s.ip + 1), rfl, BitVec.toNat_add s.ip 1, zeroOperand_nop.outcome .nop rfl⟩⟩

/-! ## The flag instructions -/

/-- The zero-operand instructions that put a bit into a flag. -/
abbrev PutsFlag (i : Instr) (f : Flag) (b : Bool) : Prop :=
  ZeroOperand i (fun s => { flags := some (s.flags.put f b) }) (fun s => s.putFlag f b)

theorem putsFlag_setOf (f : Flag) : PutsFlag (setOf f) f true := by
  cases f <;> exact ⟨rfl, rfl, carries_putFlag _ _, fun _ => ⟨rfl, rfl, rfl, rfl⟩⟩

theorem putsFlag_clearOf (f : Flag) : PutsFlag (clearOf f) f false := by
  cases f <;> exact ⟨rfl, rfl, carries_putFlag _ _, fun _ => ⟨rfl, rfl, rfl, rfl⟩⟩

/-- The flag has the bit, and all else is as in any zero-operand instruction. -/
theorem PutsFlag.outcome {i : Instr} {f : Flag} {b : Bool} (h : PutsFlag i f b) (s : State) :
    ∃ t, exec i s = .next t ∧ t.flags.get f = b ∧ CommitsTo t (s.ip + 1) ∧ t.sp = s.sp ∧ Frame s t [] [f] none ∧
      SameLines s t ∧ RetiresIn i [fetched i s] [.read s.ip, .read s.ip] s t :=
  have hexec := congrFun h.meaning s
  ⟨_, hexec, s.flags.get_put_same f b, ZeroOperand.outcome h (.flag f b) hexec⟩

/-- Settles O13: `SET_f` and `CLEAR_f` put 1 and 0 into their flag. -/
theorem flagInstructionsWriteOneFlag : Obligations.FlagInstructionsWriteOneFlag := fun f =>
  ⟨by cases f <;> rfl, by cases f <;> rfl, fun s => ⟨(putsFlag_setOf f).outcome s, (putsFlag_clearOf f).outcome s⟩⟩

/-! ## Increment and decrement -/

/-- The zero-operand instructions that request an ALU operation on a register. -/
abbrev Counts (i : Instr) (op : AluOp) (r : Reg) : Prop :=
  ZeroOperand i (fun s => aluRow op r s 0) (fun s => s.aluReg op r 0)

theorem sameLines_aluReg (s : State) (op : AluOp) (r : Reg) (v : Word) : SameLines s (s.aluReg op r v) := by simp [SameLines]

theorem counts_incOf (r : Reg) : Counts (incOf r) .inc r := by
  cases r <;> exact ⟨rfl, rfl, carries_aluRow _ _ 0, fun s => sameLines_aluReg s _ _ 0⟩

theorem counts_decOf (r : Reg) : Counts (decOf r) .dec r := by
  cases r <;> exact ⟨rfl, rfl, carries_aluRow _ _ 0, fun s => sameLines_aluReg s _ _ 0⟩

/-- ZERO and NEGATIVE after an ALU request with a defined operation describe the register it has written (R140, R141). -/
theorem zeroNegativeOf_aluReg (s : State) {op : AluOp} (hop : op ≠ .other) (r : Reg) (v : Word) :
    ZeroNegativeOf (s.aluReg op r v) ((s.aluReg op r v).getReg r) := by
  obtain ⟨-, -, -, -, hupdate, -⟩ := aluComputesResultAndFlags (s.getReg r) v
  rw [ZeroNegativeOf, State.getReg_aluReg_same s hop, State.aluReg_flags, hupdate op hop]
  exact ⟨decide_eq_true_iff, decide_eq_true_iff⟩

/-- The register has the answer's result, ZERO and NEGATIVE describe it, and all else is as in any zero-operand instruction. -/
theorem Counts.outcome {i : Instr} {op : AluOp} {r : Reg} (h : Counts i op r) (hop : op ≠ .other) {s : State} {n : Nat}
    (hn : (alu op (s.getReg r) 0).result.toNat = n) :
    ∃ t, exec i s = .next t ∧ (t.getReg r).toNat = n ∧ ZeroNegativeOf t (t.getReg r) ∧ CommitsTo t (s.ip + 1) ∧
      t.sp = s.sp ∧ Frame s t [r] [.zero, .negative] none ∧ SameLines s t ∧
      RetiresIn i [fetched i s] [.read s.ip, .read s.ip] s t := by
  have hexec := congrFun h.meaning s
  refine ⟨_, hexec, ?_, ?_, ZeroOperand.outcome h (.alu 1 hop r 0) hexec⟩ <;> rw [State.getReg_commit]
  · rw [State.getReg_aluReg_same s hop, hn]
  · exact zeroNegativeOf_aluReg s hop r 0

/-- Settles O14: `INC_r` and `DEC_r` request the ALU operations of those names on their register. -/
theorem incrementAndDecrementResults : Obligations.IncrementAndDecrementResults := by
  intro r
  refine ⟨by cases r <;> rfl, by cases r <;> rfl, fun s => ?_⟩
  obtain ⟨-, -, hinc, hdec, -⟩ := aluComputesResultAndFlags (s.getReg r) 0
  exact ⟨(counts_incOf r).outcome (by decide) hinc, (counts_decOf r).outcome (by decide) hdec⟩

end Sys2Proof.Machine
end

section
/-! PROOFS. The immediate family (R200 to R209): loads of a literal, and addition and subtraction with one. Each is one operation
of the state with the operand word, and `Immediate.outcome` says once what they have in common. -/

namespace Sys2Proof.Machine

open Sys2Proof.Claims

/-! ## Immediate instructions -/

/-- An immediate instruction (R200): one operation of the state with the word after the opcode word, which its cycle table carries
out in cycle 2 with whatever word it reads there, and which leaves the bus lines and the scratch cells alone. -/
structure Immediate (i : Instr) (imm : Word) (row : State → Word → CycleRow) (op : Word → State → State) : Prop where
  meaning : exec i = sequential 2 (op imm)
  table : cycleTable i = immediateTable row
  operand : (encode i)[1]? = some imm
  carries : ∀ v, Carries (fun s => row s v) (op v)
  lines : ∀ s, SameLines s (op imm s)

section Immediate

variable {i : Instr} {imm : Word} {row : State → Word → CycleRow} {op : Word → State → State} {s t : State}

/-- The opcode word is read twice and the operand word once, and the third of the three cycles commits. -/
theorem Immediate.retiresIn (h : Immediate i imm row op) (ht : exec i s = .next t) :
    RetiresIn i [fetched i s, atOperand i s] [.read s.ip, .read s.ip, .read (s.ip + 1)] s t := by
  refine retiresIn_of_run ht fun hb hi => ⟨_, congrFun h.meaning s.latch, ?_⟩
  have hfetch : Fetches i (immediateTable row) s :=
    ⟨hb, hi.opcodeWord, by rw [hi.opcodeWord, cycleTable_opcodeWord, h.table]⟩
  exact immediateTable_run h.carries hfetch (hi 1 imm h.operand)

/-- All that the immediate instructions have in common; the row of the meaning says which registers and flags the frame leaves
out. -/
theorem Immediate.outcome (h : Immediate i imm row op) {regs : List Reg} {flags : List Flag}
    (hfp : HasFootprint (sequential 2 (op imm)) { regsWritten := regs, flagsWritten := flags, words := 2 })
    (ht : exec i s = .next t) :
    CommitsTo t (s.ip + 2) ∧ t.sp = s.sp ∧ Frame s t regs flags none ∧ SameLines s t ∧
      RetiresIn i [fetched i s, atOperand i s] [.read s.ip, .read s.ip, .read (s.ip + 1)] s t := by
  have hop : sequential 2 (op imm) s = .next t := h.meaning ▸ ht
  obtain ⟨hcommit, hsp, hframe⟩ := hfp.outcome hop
  have hlines : SameLines s t := by
    rw [sequential_next_iff.mp hop]
    exact h.lines s
  exact ⟨hcommit, hsp, hframe, hlines, h.retiresIn ht⟩

end Immediate

/-! ## Loads -/

theorem sameLines_loadReg (s : State) (r : Reg) (v : Word) : SameLines s (s.loadReg r v) := by simp [SameLines]

theorem immediate_loadImmOf (imm : Word) (r : Reg) :
    Immediate (loadImmOf imm r) imm (loadRow r) (fun v s => s.loadReg r v) := by
  cases r <;> exact ⟨rfl, rfl, rfl, carries_loadRow _, fun s => sameLines_loadReg s _ imm⟩

/-- ZERO after a load says whether the loaded value is 0 (R31). -/
theorem zero_loadReg_iff (s : State) (r : Reg) (v : Word) : (s.loadReg r v).flags.zero = true ↔ v = 0 := by
  rw [State.loadReg_flags]
  exact beq_iff_eq

/-- Settles O15: `LOAD_IMM_r` is the immediate instruction that loads its register. -/
theorem loadImmediateResults : Obligations.LoadImmediateResults := by
  intro r imm
  refine ⟨by cases r <;> rfl, fun s => ?_⟩
  have h := immediate_loadImmOf imm r
  have hexec := congrFun h.meaning s
  refine ⟨_, hexec, ?_, zero_loadReg_iff s r imm, h.outcome (.load r imm) hexec⟩
  rw [State.getReg_commit, State.getReg_loadReg_same]

/-! ## Addition and subtraction -/

/-- The immediate instructions that request an ALU operation on a register and the operand word. -/
abbrev ComputesWith (i : Instr) (imm : Word) (op : AluOp) (r : Reg) : Prop :=
  Immediate i imm (aluRow op r) (fun v s => s.aluReg op r v)

theorem computesWith_addImmOf (imm : Word) (r : Reg) : ComputesWith (addImmOf imm r) imm .add r := by
  cases r <;> exact ⟨rfl, rfl, rfl, carries_aluRow _ _, fun s => sameLines_aluReg s _ _ imm⟩

theorem computesWith_subImmOf (imm : Word) (r : Reg) : ComputesWith (subImmOf imm r) imm .sub r := by
  cases r <;> exact ⟨rfl, rfl, rfl, carries_aluRow _ _, fun s => sameLines_aluReg s _ _ imm⟩

/-- The register has the answer's result, ZERO and NEGATIVE describe it, and all else is as in any immediate instruction. -/
theorem ComputesWith.outcome {i : Instr} {imm : Word} {op : AluOp} {r : Reg} (h : ComputesWith i imm op r) (hop : op ≠ .other)
    {s : State} {n : Nat} (hn : (alu op (s.getReg r) imm).result.toNat = n) :
    ∃ t, exec i s = .next t ∧ (t.getReg r).toNat = n ∧ ZeroNegativeOf t (t.getReg r) ∧ CommitsTo t (s.ip + 2) ∧
      t.sp = s.sp ∧ Frame s t [r] [.zero, .negative] none ∧ SameLines s t ∧
      RetiresIn i [fetched i s, atOperand i s] [.read s.ip, .read s.ip, .read (s.ip + 1)] s t := by
  have hexec := congrFun h.meaning s
  refine ⟨_, hexec, ?_, ?_, Immediate.outcome h (.alu 2 hop r imm) hexec⟩ <;> rw [State.getReg_commit]
  · rw [State.getReg_aluReg_same s hop, hn]
  · exact zeroNegativeOf_aluReg s hop r imm

/-- Settles O16: `ADD_r_IMMEDIATE` and `SUB_r_IMMEDIATE` request the ALU operations of those names with the operand word. -/
theorem arithmeticImmediateResults : Obligations.ArithmeticImmediateResults := by
  intro r imm
  refine ⟨by cases r <;> rfl, by cases r <;> rfl, fun s => ?_⟩
  obtain ⟨hadd, hsub, -⟩ := aluComputesResultAndFlags (s.getReg r) imm
  exact ⟨(computesWith_addImmOf imm r).outcome (by decide) hadd, (computesWith_subImmOf imm r).outcome (by decide) hsub⟩

end Sys2Proof.Machine
end

section
/-! PROOFS. The absolute family (R220 to R229): loads of a cell, and addition and subtraction with one. Each is one operation of the
state with the content of the cell whose address is the operand word, and `Absolute.outcome` says once what they have in common. -/

namespace Sys2Proof.Machine

open Sys2Proof.Claims

/-! ## Absolute instructions -/

/-- An absolute instruction (R220): one operation of the state with the cell that the word after the opcode word names, which its
cycle table carries out in cycle 3 with whatever word it reads there, and which leaves the bus lines and the scratch cells alone. -/
structure Absolute (i : Instr) (addr : Word) (row : State → Word → CycleRow) (op : Word → State → State) : Prop where
  meaning : exec i = sequential 2 fun s => op (s.absolute addr) s
  table : cycleTable i = absoluteTable row
  operand : (encode i)[1]? = some addr
  carries : ∀ v, Carries (fun s => row s v) (op v)
  lines : ∀ s v, SameLines s (op v s)

section Absolute

variable {i : Instr} {addr : Word} {row : State → Word → CycleRow} {op : Word → State → State} {s t : State}

/-- The opcode word is read twice, the operand word and the cell once each, and the fourth of the four cycles commits. -/
theorem Absolute.retiresIn (h : Absolute i addr row op) (ht : exec i s = .next t) :
    RetiresIn i [fetched i s, atOperand i s, atCell i addr s]
      [.read s.ip, .read s.ip, .read (s.ip + 1), .read addr] s t := by
  refine retiresIn_of_run ht fun hb hi => ⟨_, congrFun h.meaning s.latch, ?_⟩
  have hfetch : Fetches i (absoluteTable row) s :=
    ⟨hb, hi.opcodeWord, by rw [hi.opcodeWord, cycleTable_opcodeWord, h.table]⟩
  exact absoluteTable_run h.carries hfetch (hi 1 addr h.operand)

/-- All that the absolute instructions have in common; the row of the meaning says which registers and flags the frame leaves
out. -/
theorem Absolute.outcome (h : Absolute i addr row op) {regs : List Reg} {flags : List Flag}
    (hfp : HasFootprint (sequential 2 fun s => op (s.absolute addr) s)
      { regsWritten := regs, flagsWritten := flags, words := 2 })
    (ht : exec i s = .next t) :
    CommitsTo t (s.ip + 2) ∧ t.sp = s.sp ∧ Frame s t regs flags none ∧ SameLines s t ∧
      RetiresIn i [fetched i s, atOperand i s, atCell i addr s]
        [.read s.ip, .read s.ip, .read (s.ip + 1), .read addr] s t := by
  have hop : sequential 2 (fun s => op (s.absolute addr) s) s = .next t := h.meaning ▸ ht
  obtain ⟨hcommit, hsp, hframe⟩ := hfp.outcome hop
  have hlines : SameLines s t := by
    rw [sequential_next_iff.mp hop]
    exact h.lines s _
  exact ⟨hcommit, hsp, hframe, hlines, h.retiresIn ht⟩

end Absolute

/-! ## Loads -/

theorem absolute_loadAbsOf (addr : Word) (r : Reg) :
    Absolute (loadAbsOf addr r) addr (loadRow r) (fun v s => s.loadReg r v) := by
  cases r <;> exact ⟨rfl, rfl, rfl, carries_loadRow _, fun s => sameLines_loadReg s _⟩

/-- Settles O17: `LOAD_ABS_r` is the absolute instruction that loads its register. An unmapped cell reads as all ones, so that
is what the register has then. -/
theorem loadAbsoluteResults : Obligations.LoadAbsoluteResults := by
  intro r addr
  refine ⟨by cases r <;> rfl, fun s => ?_⟩
  have h := absolute_loadAbsOf addr r
  have hexec := congrFun h.meaning s
  have hreg : ((s.loadReg r (s.absolute addr)).commit (s.ip + 2)).getReg r = s.memRead addr := by
    rw [State.getReg_commit, State.getReg_loadReg_same, State.absolute]
  exact ⟨_, hexec, hreg, fun hm => hreg.trans (State.memRead_unmapped hm), zero_loadReg_iff s r (s.memRead addr),
    h.outcome (.loadAbsolute r addr) hexec⟩

/-! ## Addition and subtraction -/

/-- The absolute instructions that request an ALU operation on a register and the cell. -/
abbrev ComputesWithCell (i : Instr) (addr : Word) (op : AluOp) (r : Reg) : Prop :=
  Absolute i addr (aluRow op r) (fun v s => s.aluReg op r v)

theorem computesWithCell_addAbsOf (addr : Word) (r : Reg) : ComputesWithCell (addAbsOf addr r) addr .add r := by
  cases r <;> exact ⟨rfl, rfl, rfl, carries_aluRow _ _, fun s => sameLines_aluReg s _ _⟩

theorem computesWithCell_subAbsOf (addr : Word) (r : Reg) : ComputesWithCell (subAbsOf addr r) addr .sub r := by
  cases r <;> exact ⟨rfl, rfl, rfl, carries_aluRow _ _, fun s => sameLines_aluReg s _ _⟩

/-- The register has the answer's result, ZERO and NEGATIVE describe it, and all else is as in any absolute instruction. -/
theorem ComputesWithCell.outcome {i : Instr} {addr : Word} {op : AluOp} {r : Reg} (h : ComputesWithCell i addr op r)
    (hop : op ≠ .other) {s : State} {n : Nat} (hn : (alu op (s.getReg r) (s.memRead addr)).result.toNat = n) :
    ∃ t, exec i s = .next t ∧ (t.getReg r).toNat = n ∧ ZeroNegativeOf t (t.getReg r) ∧ CommitsTo t (s.ip + 2) ∧
      t.sp = s.sp ∧ Frame s t [r] [.zero, .negative] none ∧ SameLines s t ∧
      RetiresIn i [fetched i s, atOperand i s, atCell i addr s]
        [.read s.ip, .read s.ip, .read (s.ip + 1), .read addr] s t := by
  have hexec := congrFun h.meaning s
  refine ⟨_, hexec, ?_, ?_, Absolute.outcome h (.aluAbsolute hop r addr) hexec⟩ <;> rw [State.getReg_commit]
  · rw [State.getReg_aluReg_same s hop, State.absolute, hn]
  · exact zeroNegativeOf_aluReg s hop r (s.absolute addr)

/-- Settles O18: `ADD_r_ABSOLUTE` and `SUB_r_ABSOLUTE` request the ALU operations of those names with the cell. -/
theorem arithmeticAbsoluteResults : Obligations.ArithmeticAbsoluteResults := by
  intro r addr
  refine ⟨by cases r <;> rfl, by cases r <;> rfl, fun s => ?_⟩
  obtain ⟨hadd, hsub, -⟩ := aluComputesResultAndFlags (s.getReg r) (s.memRead addr)
  exact ⟨(computesWithCell_addAbsOf addr r).outcome (by decide) hadd,
    (computesWithCell_subAbsOf addr r).outcome (by decide) hsub⟩

end Sys2Proof.Machine
end

section
/-! PROOFS. The stack family (R240 to R248): push, pop, call and return. Each is one request to the Stack Unit and the settle cycle
after it; what a request leaves in the cells is said once, and the frames and cycle protocols come from the rows and the tables. -/

namespace Sys2Proof.Machine

open Sys2Proof.Claims

/-! ## Stores and fetches -/

/-- What a write transaction leaves in the cell that it addresses is a store of the value (R64, R66). -/
theorem stored_of_memRead {s t : State} {a v : Word} (h : t.memRead a = (s.memWrite a v).memRead a) : Stored s t a v :=
  ⟨fun hm hwf => h.trans (State.memRead_memWrite_same hwf hm v), fun hm => by rw [h, State.memWrite_unmapped hm]⟩

/-- From a boundary with the words of an instruction at `IP`, the fetch dispatches to its cycle table (R134). -/
theorem fetches_of_holdsInstr {i : Instr} {table : CycleTable} {s : State} (htable : cycleTable i = table)
    (hb : s.atBoundary = true) (hi : s.holdsInstr i) : Fetches i table s :=
  ⟨hb, hi.opcodeWord, by rw [hi.opcodeWord, cycleTable_opcodeWord, htable]⟩

/-! ## Push and pop -/

theorem cycleTable_pushOf (r : Reg) : cycleTable (pushOf r) = pushTable r := by cases r <;> rfl

theorem cycleTable_popOf (r : Reg) : cycleTable (popOf r) = popTable r := by cases r <;> rfl

/-- The opcode word is read twice, and the third of the three cycles writes the register to the cell at `SP`. -/
theorem retiresIn_pushOf {r : Reg} {s t : State} (ht : exec (pushOf r) s = .next t) :
    RetiresIn (pushOf r) [fetched (pushOf r) s, requestsPush 2 (s.getReg r) (fetched (pushOf r) s)]
      [.read s.ip, .read s.ip, .write s.sp (s.getReg r)] s t := by
  refine retiresIn_of_run ht fun hb hi => ⟨_, congrFun (exec_pushOf r) s.latch, ?_⟩
  have hrun := pushTable_run (fetches_of_holdsInstr (cycleTable_pushOf r) hb hi)
  rwa [← State.getReg_latch] at hrun

/-- The opcode word is read twice, and the third of the three cycles reads the cell at `SP + 1`. -/
theorem retiresIn_popOf {r : Reg} {s t : State} (ht : exec (popOf r) s = .next t) :
    RetiresIn (popOf r) [fetched (popOf r) s, requestsPop 2 (fetched (popOf r) s)]
      [.read s.ip, .read s.ip, .read (s.sp + 1)] s t :=
  retiresIn_of_run ht fun hb hi =>
    ⟨_, congrFun (exec_popOf r) s.latch, popTable_run (fetches_of_holdsInstr (cycleTable_popOf r) hb hi)⟩

/-- Settles O19: the push stores through the port, so an unmapped cell is not written, and `SP` moves all the same. -/
theorem pushResults : Obligations.PushResults := by
  intro r
  refine ⟨by cases r <;> rfl, fun s => ?_⟩
  have hexec := congrFun (exec_pushOf r) s
  obtain ⟨hcommit, hsp, hframe⟩ := (HasFootprint.push r).outcome (s := s) rfl
  have hspNat : (s.sp - 1).toNat = (s.sp.toNat + (2 ^ 32 - 1)) % 2 ^ 32 := by
    rw [BitVec.toNat_sub, Nat.add_comm]
    rfl
  exact ⟨_, hexec, stored_of_memRead (by simp), hsp ▸ hspNat, hcommit, hframe, rfl, rfl, by simp, by simp,
    retiresIn_pushOf hexec⟩

/-- Settles O20: the pop reads the cell at the new `SP` through the port and loads the register without the flag update of a
load. -/
theorem popResults : Obligations.PopResults := by
  intro r
  refine ⟨by cases r <;> rfl, fun s => ?_⟩
  have hexec := congrFun (exec_popOf r) s
  obtain ⟨hcommit, hsp, hframe⟩ := (HasFootprint.pop r).outcome (s := s) rfl
  have hreg : ((s.pop.setReg r s.popped).settle.commit (s.ip + 1)).getReg r = s.memRead (s.sp + 1) := by
    rw [State.getReg_commit, State.getReg_settle, State.getReg_setReg_same, State.popped]
  exact ⟨_, hexec, hsp ▸ BitVec.toNat_add s.sp 1, hsp ▸ hreg, hcommit, hframe, rfl, rfl, by simp, by simp,
    retiresIn_popOf hexec⟩

/-! ## Call and return -/

/-- The target is read in the third of the four cycles, before the fourth writes the return address to the cell at `SP`. -/
theorem retiresIn_call {target : Word} {s t : State} (ht : exec (.call target) s = .next t) :
    RetiresIn (.call target)
      [fetched (.call target) s, atOperand (.call target) s,
        requestsPush 3 (s.ip + 2) { atOperand (.call target) s with tmp1 := target }]
      [.read s.ip, .read s.ip, .read (s.ip + 1), .write s.sp (s.ip + 2)] s t :=
  retiresIn_of_run ht fun hb hi => ⟨_, rfl, callTable_run (fetches_of_holdsInstr rfl hb hi) (hi 1 target rfl)⟩

/-- The opcode word is read twice, and the third of the three cycles reads the cell at `SP + 1`. -/
theorem retiresIn_ret {s t : State} (ht : exec .ret s = .next t) :
    RetiresIn .ret [fetched .ret s, requestsPop 2 (fetched .ret s)] [.read s.ip, .read s.ip, .read (s.sp + 1)] s t :=
  retiresIn_of_run ht fun hb hi => ⟨_, rfl, returnTable_run (fetches_of_holdsInstr rfl hb hi)⟩

/-- Settles O21: the call pushes the address of the word after its operand and commits to the target, which it has read before
the push. -/
theorem callResults : Obligations.CallResults := by
  refine fun target => ⟨rfl, fun s => ?_⟩
  obtain ⟨hcommit, hsp, hframe⟩ := (HasFootprint.call target).outcome (s := s) rfl
  exact ⟨_, rfl, stored_of_memRead (by simp), hsp, hcommit, hframe, rfl, rfl, rfl, by simp, retiresIn_call rfl⟩

/-- Settles O22: the return commits to whatever the port reads at the new `SP`, which is all ones if the cell is unmapped. -/
theorem returnResults : Obligations.ReturnResults := by
  refine ⟨rfl, fun s => ?_⟩
  obtain ⟨hcommit, hsp, hframe⟩ := HasFootprint.ret.outcome (s := s) rfl
  exact ⟨_, rfl, hsp, hcommit, fun hm => State.memRead_unmapped hm, hframe, rfl, rfl, rfl, rfl, retiresIn_ret rfl⟩

/-- Settles O43: the return reads the cell that the call has stored to. -/
theorem returnUndoesCall : Obligations.ReturnUndoesCall := by
  intro s target hwf hmap
  obtain ⟨-, hcall⟩ := callResults target
  obtain ⟨t, ht, ⟨hstored, -⟩, htsp, -, ⟨htregs, htflags, -⟩, -⟩ := hcall s
  obtain ⟨-, hret⟩ := returnResults
  obtain ⟨u, hu, husp, ⟨huip, -⟩, -, ⟨huregs, huflags, -⟩, -⟩ := hret t
  have hsp : t.sp + 1 = s.sp := by rw [htsp, BitVec.sub_add_cancel]
  refine ⟨t, u, ht, hu, ?_, husp.trans hsp, fun r hr => ?_, fun f hf => ?_⟩
  · rw [huip, hsp, hstored hmap hwf]
  · rw [huregs r hr, htregs r hr]
  · rw [huflags f hf, htflags f hf]

end Sys2Proof.Machine
end

section
/-! PROOFS. The branch family (R260 to R271): the jump and the ten conditional jumps. Each is one commit, to its target or past its
operand word, and one condition on the flags decides between the two, both in the meaning and in the cycle table. -/

namespace Sys2Proof.Machine

open Sys2Proof.Claims

/-! ## Branch instructions -/

/-- A branch instruction (R260): where the condition holds of the flags it commits to the target, which is its operand word, else to
the address after both of its words. -/
structure Branch (i : Instr) (cond : Flags → Bool) (target : Word) : Prop where
  meaning : ∀ s, exec i s = .next (s.commit (if cond s.flags then target else s.ip + 2))
  table : cycleTable i = branchTable cond
  operand : (encode i)[1]? = some target

/-- A commit takes `IP` and the bus address to the carried address and changes nothing else (R136). -/
theorem commit_outcome (s : State) (next : Word) :
    CommitsTo (s.commit next) next ∧ (s.commit next).sp = s.sp ∧ Frame s (s.commit next) [] [] none ∧
      SameLines s (s.commit next) := by
  obtain ⟨hcommit, hsp, hframe⟩ := (HasFootprint.jump next).outcome (s := s) rfl
  exact ⟨hcommit, hsp, hframe, rfl, rfl, rfl, rfl⟩

section Branch

variable {i : Instr} {cond : Flags → Bool} {target : Word} {s : State}

theorem Branch.exec_taken (h : Branch i cond target) (hc : cond s.flags = true) : exec i s = .next (s.commit target) := by
  rw [h.meaning, if_pos hc]

theorem Branch.exec_skipped (h : Branch i cond target) (hc : cond s.flags = false) :
    exec i s = .next (s.commit (s.ip + 2)) := by
  rw [h.meaning, hc, if_neg Bool.false_ne_true]

/-- A jump that is taken reads its opcode word twice and its operand word once, and the third of the three cycles commits. -/
theorem Branch.retiresIn_taken (h : Branch i cond target) (hc : cond s.flags = true) :
    RetiresIn i [fetched i s, atOperand i s] [.read s.ip, .read s.ip, .read (s.ip + 1)] s (s.commit target) := by
  refine retiresIn_of_run (h.exec_taken hc) fun hb hi => ⟨_, h.exec_taken (s := s.latch) hc, ?_⟩
  have hrun := branchTable_run (fetches_of_holdsInstr h.table hb hi) (hi 1 target h.operand) rfl
  rwa [hc] at hrun

/-- A jump that is not taken reads its opcode word twice, and the second of the two cycles commits. The operand word is never read,
so the run needs no more than the opcode word at `IP`. -/
theorem Branch.run_skipped (h : Branch i cond target) (hc : cond s.flags = false) (hb : s.atBoundary = true)
    (hword : s.memRead s.ip = opcodeWord i) :
    CycleRun s [fetched i s] [.read s.ip, .read s.ip] (s.latch.commit (s.ip + 2)) := by
  have hfetch : Fetches i (branchTable cond) s := ⟨hb, hword, by rw [hword, cycleTable_opcodeWord, h.table]⟩
  have hrun := branchTable_run hfetch rfl rfl
  rwa [hc] at hrun

theorem Branch.retiresIn_skipped (h : Branch i cond target) (hc : cond s.flags = false) :
    RetiresIn i [fetched i s] [.read s.ip, .read s.ip] s (s.commit (s.ip + 2)) :=
  retiresIn_of_run (h.exec_skipped hc) fun hb hi =>
    ⟨_, h.exec_skipped (s := s.latch) hc, h.run_skipped hc hb hi.opcodeWord⟩

end Branch

/-! ## The jump -/

theorem branch_jump (target : Word) : Branch (.jump target) (fun _ => true) target := ⟨fun _ => rfl, rfl, rfl⟩

/-- Settles O23: `JUMP` is the branch instruction whose condition always holds. -/
theorem jumpResults : Obligations.JumpResults := by
  refine fun target => ⟨rfl, fun s => ?_⟩
  obtain ⟨hcommit, hsp, hframe, hlines⟩ := commit_outcome s target
  exact ⟨_, rfl, hcommit, hsp, hframe, hlines, (branch_jump target).retiresIn_taken rfl⟩

/-! ## The conditional jumps -/

theorem branch_jumpIfOf (target : Word) (f : Flag) : Branch (jumpIfOf target f) (fun g => g.get f) target := by
  cases f <;> exact ⟨fun _ => rfl, rfl, rfl⟩

theorem branch_jumpIfNotOf (target : Word) (f : Flag) : Branch (jumpIfNotOf target f) (fun g => !g.get f) target := by
  have hmeaning (s : State) :
      jumpShape f false target s = .next (s.commit (if !s.flags.get f then target else s.ip + 2)) := by
    rw [jumpShape, ite_eq_false_flag]
  cases f <;> exact ⟨hmeaning, rfl, rfl⟩

/-- The condition of a conditional jump says that its flag has the wanted value. -/
theorem branch_of_wanted {i : Instr} {f : Flag} {target : Word} {wanted : Bool}
    (h : i = jumpIfOf target f ∧ wanted = true ∨ i = jumpIfNotOf target f ∧ wanted = false) :
    ∃ cond, Branch i cond target ∧ ∀ g, cond g = true ↔ g.get f = wanted := by
  rcases h with ⟨rfl, rfl⟩ | ⟨rfl, rfl⟩
  · exact ⟨_, branch_jumpIfOf target f, fun _ => Iff.rfl⟩
  · exact ⟨_, branch_jumpIfNotOf target f, fun g => by rw [Bool.not_eq_true']⟩

/-- Settles O24: the condition decides which of the two commits is made, and each of them changes nothing else. -/
theorem conditionalJumpResults : Obligations.ConditionalJumpResults := by
  intro f target
  refine ⟨by cases f <;> rfl, by cases f <;> rfl, fun s i wanted hi => ?_⟩
  obtain ⟨cond, h, hcond⟩ := branch_of_wanted hi
  by_cases hf : s.flags.get f = wanted
  · have hc : cond s.flags = true := (hcond _).mpr hf
    obtain ⟨hcommit, hsp, hframe, hlines⟩ := commit_outcome s target
    exact ⟨_, h.exec_taken hc, hsp, hframe, hlines, fun _ => ⟨hcommit, h.retiresIn_taken hc⟩, fun hne => absurd hf hne⟩
  · have hc : cond s.flags = false := Bool.eq_false_iff.mpr (mt (hcond _).mp hf)
    obtain ⟨hcommit, hsp, hframe, hlines⟩ := commit_outcome s (s.ip + 2)
    refine ⟨_, h.exec_skipped hc, hsp, hframe, hlines, fun he => absurd he hf,
      fun _ => ⟨hcommit, h.retiresIn_skipped hc, fun hb hword => ?_⟩⟩
    have hrun := h.run_skipped hc hb hword
    exact ⟨hrun.ticks_all, hrun.busTrace⟩

end Sys2Proof.Machine
end

section
/-! PROOFS. `MOVE` (R280, R281): what its operand words name, and what it copies where. A source operand is one value to read; the
two kinds of destination differ in the frame, in the cycle table and in the settle cycle, so each has its own results. -/

namespace Sys2Proof.Machine

open Sys2Proof.Claims

/-! ## Operand words -/

theorem isRegId_iff {w : Word} : isRegId w = true ↔ w = Config.regIdA ∨ w = Config.regIdB ∨ w = Config.regIdX := by
  simp only [isRegId, Bool.or_eq_true, beq_iff_eq, or_assoc]

/-- The id of a register stands for that register (R105, R280). -/
theorem ofWord_id (r : Reg) : MoveOperand.ofWord r.id = .reg r := MoveOperand.ofWord_toWord (m := .reg r) rfl

/-- A word that is no register id stands for the cell with that address (R105, R280). -/
theorem ofWord_of_not_isRegId {w : Word} (h : isRegId w = false) : MoveOperand.ofWord w = .cell w :=
  MoveOperand.ofWord_toWord (m := .cell w) (by rw [MoveOperand.wellFormed, h, Bool.not_false])

/-- Settles O5: the three words are the ids of the three registers, and every other word is an address. -/
theorem operandWordNamesRegisterOrCell : Obligations.OperandWordNamesRegisterOrCell := by
  intro w
  refine ⟨isRegId_iff, ?_, ?_, ?_, ofWord_of_not_isRegId⟩ <;> rintro rfl
  · exact ofWord_id .a
  · exact ofWord_id .b
  · exact ofWord_id .x

/-! ## The meaning -/

theorem wellFormed_move_iff {src dst : MoveOperand} :
    (Instr.move src dst).wellFormed = true ↔ src.wellFormed = true ∧ dst.wellFormed = true := by
  rw [Instr.wellFormed, Bool.and_eq_true]

/-- A value that agrees with either form of the source is what the source reads. -/
theorem eq_readOperand {src : MoveOperand} {s : State} {v : Word} (hreg : ∀ r, src = .reg r → v = s.getReg r)
    (hcell : ∀ a, src = .cell a → v = s.memRead a) : v = s.readOperand src := by
  cases src with
  | reg r => exact hreg r rfl
  | cell a => exact hcell a rfl

/-- The fetch changes no source value. -/
@[simp] theorem State.readOperand_latch (s : State) (src : MoveOperand) : s.latch.readOperand src = s.readOperand src := by
  cases src with
  | reg r => exact State.getReg_latch s r
  | cell a => exact State.memRead_latch s a

theorem exec_move (src dst : MoveOperand) (s : State) :
    exec (.move src dst) s = .next ((s.writeOperand dst (s.readOperand src)).clearScratch.commit (s.ip + 3)) := rfl

/-- After its fetch, a `MOVE` copies the value that its source had before. -/
theorem exec_move_latch (src dst : MoveOperand) (s : State) :
    exec (.move src dst) s.latch =
      .next ((s.latch.writeOperand dst (s.readOperand src)).clearScratch.commit (s.ip + 3)) := by
  rw [exec_move, State.readOperand_latch, State.latch_ip]

/-! ## The cycle protocol -/

section Move

variable {src : MoveOperand} {s t : State}

/-- Both operand words and the source are read, and the fifth of the five cycles writes the register. -/
theorem retiresIn_move_reg {r : Reg} (ht : exec (.move src (.reg r)) s = .next t)
    (hwf : (Instr.move src (.reg r)).wellFormed = true) :
    RetiresIn (.move src (.reg r))
      [fetched (.move src (.reg r)) s, atOperand (.move src (.reg r)) s, movesFrom (.move src (.reg r)) src s,
        movesTo (.move src (.reg r)) src (s.readOperand src) s]
      [.read s.ip, .read s.ip, .read (s.ip + 1), .read (sourceAddress src s), .read (s.ip + 2)] s t := by
  obtain ⟨hsrc, -⟩ := wellFormed_move_iff.mp hwf
  exact retiresIn_of_run ht fun hb hi => ⟨_, exec_move_latch src (.reg r) s,
    moveTable_run_reg (fetches_of_holdsInstr rfl hb hi) hsrc (hi 1 _ rfl) (hi 2 _ rfl)⟩

/-- Both operand words and the source are read before the sixth of the six cycles writes the cell. -/
theorem retiresIn_move_cell {a : Word} (ht : exec (.move src (.cell a)) s = .next t)
    (hwf : (Instr.move src (.cell a)).wellFormed = true) :
    RetiresIn (.move src (.cell a))
      [fetched (.move src (.cell a)) s, atOperand (.move src (.cell a)) s, movesFrom (.move src (.cell a)) src s,
        movesTo (.move src (.cell a)) src (s.readOperand src) s,
        movesOut (.move src (.cell a)) src (s.readOperand src) a s]
      [.read s.ip, .read s.ip, .read (s.ip + 1), .read (sourceAddress src s), .read (s.ip + 2),
        .write a (s.readOperand src)] s t := by
  obtain ⟨hsrc, hdst⟩ := wellFormed_move_iff.mp hwf
  exact retiresIn_of_run ht fun hb hi => ⟨_, exec_move_latch src (.cell a) s,
    moveTable_run_cell (fetches_of_holdsInstr rfl hb hi) hsrc hdst (hi 1 _ rfl) (hi 2 _ rfl)⟩

end Move

/-! ## Results -/

/-- Settles O25: the rows of the two forms of `MOVE` give the frames. A register is written directly and a cell through the port, so
an unmapped cell is not written. -/
theorem moveResults : Obligations.MoveResults := by
  refine fun src dst => ⟨rfl, fun s v hreg hcell => ?_⟩
  obtain rfl := eq_readOperand hreg hcell
  have hexec := exec_move src dst s
  cases dst with
  | reg r =>
    obtain ⟨hcommit, hsp, hframe⟩ := (HasFootprint.moveToReg src r).outcome (s := s) rfl
    refine ⟨_, hexec, hcommit, hsp, rfl, rfl, ?_, nofun⟩
    rintro _ ⟨⟩
    exact ⟨by simp, hframe, by simp, by simp, retiresIn_move_reg hexec⟩
  | cell a =>
    obtain ⟨hcommit, hsp, hframe⟩ := (HasFootprint.moveToCell src a).outcome (s := s) rfl
    refine ⟨_, hexec, hcommit, hsp, rfl, rfl, nofun, ?_⟩
    rintro _ ⟨⟩
    exact ⟨stored_of_memRead (by simp), hframe, rfl, rfl, retiresIn_move_cell hexec⟩

end Sys2Proof.Machine
end

section
/-! PROOFS. The Instruction Registry is built exactly where its rows collide on no key (R108, R303). Registering one descriptor
extends a registry without collisions by one row or refuses, and the induction over the rows keeps the rows already bound. -/

namespace Sys2Proof

/-- No two rows share an opcode, and no two share a name. -/
def CollisionFree (rows : List Descriptor) : Prop := (rows.map (·.opcode)).Nodup ∧ (rows.map (·.name)).Nodup

theorem collisionFree_nil : CollisionFree [] := ⟨List.nodup_nil, List.nodup_nil⟩

/-- The rows at the front of a registry without collisions have none either. -/
theorem CollisionFree.of_append {front rest : List Descriptor} (h : CollisionFree (front ++ rest)) : CollisionFree front := by
  obtain ⟨hopcodes, hnames⟩ := h
  rw [List.map_append] at hopcodes hnames
  exact ⟨hopcodes.of_append_left, hnames.of_append_left⟩

/-- One more row collides with none where both its keys are new. -/
theorem collisionFree_concat_iff {bound : List Descriptor} {d : Descriptor} :
    CollisionFree (bound ++ [d]) ↔
      CollisionFree bound ∧ d.opcode ∉ bound.map (·.opcode) ∧ d.name ∉ bound.map (·.name) := by
  simp only [CollisionFree, ← List.concat_eq_append, List.map_concat, List.nodup_concat]
  tauto

/-- A descriptor is registered exactly where both its keys are new, and then it comes last (R108). -/
theorem register_ok_iff {bound bound' : List Descriptor} {d : Descriptor} :
    register bound d = .ok bound' ↔
      (d.opcode ∉ bound.map (·.opcode) ∧ d.name ∉ bound.map (·.name)) ∧ bound' = bound ++ [d] := by
  have hopcode : bound.any (fun e => e.opcode == d.opcode) = true ↔ d.opcode ∈ bound.map (·.opcode) := by simp
  have hname : bound.any (fun e => e.name == d.name) = true ↔ d.name ∈ bound.map (·.name) := by simp
  rw [register]
  split
  case isTrue ho => simp [hopcode.mp ho]
  case isFalse ho =>
    split
    case isTrue hn => simp [hname.mp hn]
    case isFalse hn =>
      rw [hopcode] at ho
      rw [hname] at hn
      simp only [ho, hn, not_false_eq_true, and_self, true_and, Except.ok.injEq, eq_comm]

/-- Registering a list registers its first descriptor and then the others. -/
theorem registerAll_cons_ok_iff {bound rest r : List Descriptor} {d : Descriptor} :
    registerAll bound (d :: rest) = .ok r ↔ ∃ bound', register bound d = .ok bound' ∧ registerAll bound' rest = .ok r := by
  rw [registerAll]
  cases register bound d <;> simp

/-- After rows without collisions, a list of rows is registered exactly where none collides, and the rows come in their order. -/
theorem registerAll_ok_iff {rows bound r : List Descriptor} (hbound : CollisionFree bound) :
    registerAll bound rows = .ok r ↔ CollisionFree (bound ++ rows) ∧ r = bound ++ rows := by
  induction rows generalizing bound with
  | nil => simp [registerAll, hbound, eq_comm]
  | cons d rest ih =>
    have hcons : bound ++ d :: rest = (bound ++ [d]) ++ rest := by simp
    have hnew : register bound d = .ok (bound ++ [d]) ↔ CollisionFree (bound ++ [d]) := by
      simp [register_ok_iff, collisionFree_concat_iff, hbound]
    rw [registerAll_cons_ok_iff, hcons]
    constructor
    · rintro ⟨bound', hd, hrest⟩
      obtain ⟨-, rfl⟩ := register_ok_iff.mp hd
      exact (ih (hnew.mp hd)).mp hrest
    · rintro ⟨hfree, hr⟩
      exact ⟨_, hnew.mpr hfree.of_append, (ih hfree.of_append).mpr ⟨hfree, hr⟩⟩

/-- A registry is built exactly where no two rows collide, and it is the rows (R303). -/
theorem buildRegistry_ok_iff {rows r : List Descriptor} : buildRegistry rows = .ok r ↔ CollisionFree rows ∧ r = rows :=
  registerAll_ok_iff collisionFree_nil

/-- The opcodes and the names of R110 are pairwise distinct. -/
theorem collisionFree_registryRows : CollisionFree registryRows := ⟨by decide, by decide⟩

/-- Settles O6: a registry is built exactly where it has no collisions, and the table of R110 has none. -/
theorem registryBuildsIffInjective : Obligations.RegistryBuildsIffInjective := by
  refine ⟨fun rows => ⟨?_, fun hfree => ⟨rows, buildRegistry_ok_iff.mpr ⟨hfree, rfl⟩⟩⟩, fun rows r h => ?_, ?_⟩
  · rintro ⟨r, h⟩
    obtain ⟨hfree, -⟩ := buildRegistry_ok_iff.mp h
    exact hfree
  · obtain ⟨-, hr⟩ := buildRegistry_ok_iff.mp h
    exact hr
  · exact buildRegistry_ok_iff.mpr ⟨collisionFree_registryRows, rfl⟩

end Sys2Proof
end

section
/-! PROOFS. What cannot go wrong, and the reset (R300, R330 to R337): every instruction retires; a reset tick gives each register
its reset value; and the two cycles after it lead to the boundary at the start address, however many wait states come between. -/

namespace Sys2Proof.Machine

/-! ## Retirement -/

/-- Settles O9: whatever an instruction's row, its meaning answers the state that it commits (R300). -/
theorem everyInstructionRetires : Obligations.EveryInstructionRetires := by
  intro i s
  obtain ⟨t, ht, -⟩ := (exec_hasFootprint i).commitsTo s
  exact ⟨t, ht⟩

/-! ## The reset tick -/

@[simp] theorem Flags.get_clear (f : Flag) : Flags.clear.get f = false := by cases f <;> rfl

/-- Where `rst` is asserted, the presented transaction does not retire (R337). -/
theorem retiring_rst (s : State) (stall : Bool) : s.retiring ⟨true, stall⟩ = none := rfl

/-- Settles O53: the tick answers the reset registers, and retires nothing. -/
theorem resetTickResetsEveryRegister : Obligations.ResetTickResetsEveryRegister := by
  refine fun s stall => ⟨retiring_rst s stall, s.resetRegisters, tick_rst stall s, ?_⟩
  simp

/-! ## The reset sequence -/

/-- Any number of wait states in front of a run makes no difference (R70). -/
theorem tickLines_stalls (n : Nat) (rest : List Lines) (s : State) :
    tickLines (List.replicate n ⟨false, true⟩ ++ rest) s = tickLines rest s :=
  tickLines_append (stallHoldsEverything s n)

/-- The second cycle of the reset sequence: the port presents a read at `BOOT_ADDR` (R331). -/
def State.atVector (s : State) : State := { s.resetRegisters with busAddr := s.params.bootAddr, resetState := .rs1 }

/-- The start address (R333): the word at `BOOT_ADDR` in vectored mode, `BOOT_ADDR` itself in direct mode. -/
def State.startAddress (s : State) : Word := if s.params.vectored then s.memRead s.params.bootAddr else s.params.bootAddr

/-- The boundary after the reset sequence (R42, right-hand column; R331). -/
def State.atStart (s : State) : State :=
  { s.resetRegisters with ip := s.startAddress, busAddr := s.startAddress, resetState := .run }

theorem tick_resetRegisters (s : State) : tick Lines.quiet s.resetRegisters = .next s.atVector := by
  have hrun : s.resetRegisters.resetState ≠ .run := by simp
  rw [tick_quiet_reset hrun, retire_read s.resetRegisters_busRw]
  rfl

theorem tick_atVector (s : State) : tick Lines.quiet s.atVector = .next s.atStart := by
  have hrun : s.atVector.resetState ≠ .run := by simp [State.atVector]
  have hrw : s.atVector.busRw = .read := s.resetRegisters_busRw
  rw [tick_quiet_reset hrun, retire_read hrw, dataIn_read hrw]
  rfl

theorem State.atStart_atBoundary (s : State) : s.atStart.atBoundary = true :=
  atBoundary_iff.mpr ⟨rfl, rfl, rfl, rfl, rfl, rfl, rfl, rfl⟩

/-- The run of the reset sequence: a reset tick and two un-stalled ticks, with wait states before each of them (R70, R331). -/
theorem tickLines_resetSequence (s : State) (stall : Bool) (m n : Nat) :
    tickLines (⟨true, stall⟩ :: (List.replicate m ⟨false, true⟩ ++ Lines.quiet ::
      (List.replicate n ⟨false, true⟩ ++ [Lines.quiet]))) s = .next s.atStart := by
  rw [tickLines_cons (tick_rst stall s), tickLines_stalls, tickLines_cons (tick_resetRegisters s), tickLines_stalls,
    tickLines_cons (tick_atVector s), tickLines_nil]

/-- Settles O54: whatever the registers held, the run ends at the boundary at the start address, which has the reset registers
but for `IP`. -/
theorem resetSequenceReachesTheStartAddress : Obligations.ResetSequenceReachesTheStartAddress :=
  fun s stall m n => ⟨s.atStart, tickLines_resetSequence s stall m n, s.atStart_atBoundary, rfl, rfl, rfl, rfl, rfl, rfl, rfl,
    Flags.get_clear, rfl⟩

end Sys2Proof.Machine
end
